-- ==== Sys2Proof/Word.lean ====
section
/-! DEFINITION. The word types of the TB-316: the widths in which the spec's layouts and the wall bus carry numbers. -/

namespace Sys2Proof

/-- A byte of the configuration record or of a wall bus message (R164). -/
abbrev Byte := BitVec 8

/-- The payload of a lane word: bits 31 to 0 (R170, R171). -/
abbrev Word := BitVec 32

/-- A whole lane word: the marker in bit 32 and the payload (R170, R171). -/
abbrev LaneWord := BitVec 33

/-- A station's rank; it is driven, combined by wired AND and counted modulo 16 on the bus (R53, R56, R60). -/
abbrev Rank := BitVec 4

/-- An epoch number, counted modulo 65536 (R39). -/
abbrev Epoch := BitVec 16

/-- A digest: a 32-bit number summed modulo 2^32 (R7). -/
abbrev Digest := BitVec 32

/-- The tag of a command (R139). -/
abbrev Tag := BitVec 6

end Sys2Proof
end

