-- ==== Sys2Proof/Syntax.lean ====
section
/-! DEFINITION. The commands of the block: one constructor per row of spec/opcode_table.json.

A row of the forward lane carries the 32-bit payload of the word that arrives (R170). A row of a bus field carries
what the OTHER stations put on the line; the station's own drive is combined with it by the machine (R50, log 5). -/

namespace Sys2Proof

/-- The two levels of the wall bus; dominant is 0 and wins (R50). -/
inductive Level where
  | dominant
  | recessive
  deriving DecidableEq, Repr

/-- The events that reach one station, as the rows of the table name them. -/
inductive Instr where
  /-- RESET: the reset line or power-on (R124). -/
  | reset
  /-- CONFIGURATION_COMPLETE: the read of the configuration memory ends; the bytes it gave, or none where the memory
  does not answer (R125, R166). -/
  | configurationComplete (read : Option (List Byte))
  /-- PIXEL_WORD: a pixel word of the forward lane (R157). -/
  | pixelWord (payload : Word)
  /-- COMMAND_WORD: a command word that does not complete a command (R139). -/
  | commandWord (payload : Word)
  /-- UNKNOWN_COMMAND: the word that completes a command of none of the eight kinds (R140). -/
  | unknownCommand (payload : Word)
  /-- SET_COLORS: the word that completes a SET COLORS command (R142). -/
  | setColors (payload : Word)
  /-- SET_POINTER_ROW: the word that completes a SET POINTER ROW command (R143). -/
  | setPointerRow (payload : Word)
  /-- MOVE_POINTER: the word that completes a MOVE POINTER command (R144). -/
  | movePointer (payload : Word)
  /-- POINTER_VISIBILITY: the word that completes a POINTER VISIBILITY command (R145). -/
  | pointerVisibility (payload : Word)
  /-- WITHDRAW: the word that completes a WITHDRAW command (R81). -/
  | withdraw (payload : Word)
  /-- READ_TARGET: the word that completes a READ TARGET command (R147). -/
  | readTarget (payload : Word)
  /-- STATUS: the word that completes a STATUS command (R148). -/
  | status (payload : Word)
  /-- REJOIN: the word that completes a REJOIN command (R134). -/
  | rejoin (payload : Word)
  /-- RECORD_SENT: the return lane finishes the head record (R152). -/
  | recordSent
  /-- LINE_START: the line in progress ends and the next begins by counting (R34). -/
  | lineStart
  /-- NATURAL_FRAME_END: line T-1 ends and line 0 begins (R36). -/
  | naturalFrameEnd
  /-- SEEK_GAP: the line has been recessive for 132 bit times (R51). -/
  | seekGap
  /-- IDLE_GAP: the line has been recessive for 11 bit times (R51). -/
  | idleGap
  /-- DRIVE_START_PULSE: the moment at which an IDLE station with a start reason drives the start pulse (R52). -/
  | driveStartPulse
  /-- START_PULSE: a start pulse is read (R51). -/
  | startPulse
  /-- ORIGIN_FIELD: the origin field is sampled; what the other stations drive in it (R53). -/
  | originField (others : BitVec 4)
  /-- MARK_SLOT: the mark slot is sampled; what the other stations drive in it (R54). -/
  | markSlot (others : Level)
  /-- MARK: the epoch field of a mark round is sampled; what the other stations drive in it (R38, R55). -/
  | mark (others : BitVec 16)
  /-- SEND_SELECTION: the first bit of the reservation field (R74). -/
  | sendSelection
  /-- RESERVATION_FIELD: the reservation field is sampled; bit r is the level the other stations put on rank r's bit (R56). -/
  | reservationField (others : BitVec 16)
  /-- FIELD_FAULT: a code violation in the field sequence (R68). -/
  | fieldFault
  /-- TRANSMIT: the slot of this station opens (R59). -/
  | transmit
  /-- READBACK_MISMATCH: a bit read differs from the bit driven (R63). -/
  | readbackMismatch
  /-- MESSAGE_ABORTED: the abort pattern is read in a slot (R62). -/
  | messageAborted
  /-- SLOT_VACANT: no dominant level within the vacancy timeout (R58). -/
  | slotVacant
  /-- MESSAGE_RECEIVED: a message ends at an inter-message gap; its bytes, or none where a code violation was read in it
  (R62, R66). -/
  | messageReceived (read : Option (List Byte))
  /-- DOMINANT_LEVEL: a dominant level other than a start pulse, outside a round (R51). -/
  | dominantLevel
  deriving DecidableEq, Repr

end Sys2Proof
end

