-- ==== Sys2Proof/Decode.lean ====
section
/-! DEFINITION. The table's decoder. No row of spec/opcode_table.json gives bits ("fields": [] in every row), so no word
of the table's numbering spells a command (log 14). The forward-lane words of R170 are read by Machine/Operands.lean. -/

namespace Sys2Proof

/-- The command a word spells by the bits of the table: none, since the table gives no row any bits. -/
def decodeTableWord (_nbits _w : Nat) : Option Instr := none

end Sys2Proof
end

