-- ==== Sys2Proof/Config.lean ====
section
/-! DEFINITION. What is fixed for the part: its capacities and limits, the values of a configuration record, and the free
choice where the spec leaves an order or a moment open. -/

namespace Sys2Proof.Config

/-- Places of the proposal queue (R72). -/
def queueCapacity : Nat := 32

/-- Largest in-flight batch (R72). -/
def batchLimit : Nat := 4

/-- Places of the report queue (R150). -/
def reportCapacity : Nat := 16

/-- The omitted count saturates here (R151). -/
def omittedLimit : Nat := 255

/-- Consecutive readback aborts that mute a station (R64). -/
def abortLimit : Nat := 8

/-- State blocks of the carousel (R108). -/
def blockCount : Nat := 66

/-- Free: the n-th choice where the spec leaves open an order within one event (R121, R150; logs 8 and 9) or the bit of a
field at which a command is taken (R57; log 29). Nothing is known of it. -/
opaque choice : Nat → Nat

end Sys2Proof.Config

namespace Sys2Proof

/-- The pixel formats of R156. -/
inductive PixelFormat where
  | index
  | direct
  deriving DecidableEq, Repr

/-- The values of a configuration record (R165); they take effect together (R125). -/
structure Settings where
  rank : Rank
  originX : Nat
  originY : Nat
  /-- W. -/
  width : Nat
  /-- T. -/
  totalLines : Nat
  /-- A, the tile height. -/
  activeLines : Nat
  format : PixelFormat
  /-- K. -/
  auditInterval : Nat
  /-- S. -/
  silenceLimit : Nat
  slewLimit : Nat
  lockWindow : Nat
  deriving DecidableEq, Repr

end Sys2Proof
end

