-- ==== Sys2Proof/Machine/Names.lean ====
section
/-! DEFINITION. The named values of the spec's states, flags and reasons, and the list of the sixteen ranks. -/

namespace Sys2Proof.Machine

/-- The seven station states (R123). -/
inductive StationState where
  | configuring
  | configFault
  | listening
  | joining
  | inStep
  | diverged
  | muted
  deriving DecidableEq, Repr

/-- The states a station reports in a header and an entry holds (R61, R86). -/
inductive Reported where
  | joining
  | inStep
  | diverged
  deriving DecidableEq, Repr

/-- Presence of a rank (R86). -/
inductive Presence where
  | absent
  | present
  deriving DecidableEq, Repr

/-- Verdict of an audit for a rank (R86). -/
inductive Verdict where
  | none
  | matching
  | mismatch
  deriving DecidableEq, Repr

/-- Why a command is refused (R140). -/
inductive RefusalReason where
  | malformed
  | notActive
  | range
  | queueFull
  deriving DecidableEq, Repr

/-- Why a configuration record cannot be used (R166). -/
inductive ConfigFaultReason where
  | noRecord
  | badCheck
  | range
  deriving DecidableEq, Repr

/-- Why an IN STEP station diverges (R131). -/
inductive DivergeCause where
  | receiveError
  | auditMismatch
  deriving DecidableEq, Repr

/-- Why a station is muted (R132). -/
inductive MuteCause where
  | repeatedAbort
  | duplicateRank
  deriving DecidableEq, Repr

/-- JOINING, IN STEP and DIVERGED are the active states (R123). -/
def StationState.active : StationState → Bool
  | .joining | .inStep | .diverged => true
  | .configuring | .configFault | .listening | .muted => false

/-- JOINING and DIVERGED are the states of a station being repaired (R107, R113). -/
def StationState.repairing : StationState → Bool
  | .joining | .diverged => true
  | .configuring | .configFault | .listening | .inStep | .muted => false

/-- The state a header and the own entry report in an active state (R59, R87). -/
def StationState.reported : StationState → Option Reported
  | .joining => some .joining
  | .inStep => some .inStep
  | .diverged => some .diverged
  | .configuring | .configFault | .listening | .muted => none

/-- A reported state is a repairing one (R105). -/
def Reported.repairing : Reported → Bool
  | .joining | .diverged => true
  | .inStep => false

/-- The sixteen ranks in ascending order (R86). -/
def allRanks : List Rank := (List.range 16).map (BitVec.ofNat 4)

/-- The table of sixteen values, one per rank, that `f` gives. -/
def ofRanks {α : Type} (f : Rank → α) : Vector α 16 :=
  ⟨⟨allRanks.map f⟩, by simp [allRanks]⟩

/-- The entry of rank `r` in a table of sixteen (R86: the entry of rank r stands at position r). -/
def atRank {α : Type} (table : Vector α 16) (r : Rank) : α := table[r.toNat]'r.isLt

/-- The table with the entry of rank `r` replaced. -/
def setRank {α : Type} (table : Vector α 16) (r : Rank) (a : α) : Vector α 16 :=
  table.set r.toNat a r.isLt

end Sys2Proof.Machine
end

