-- ==== Sys2Proof/Machine/Wall.lean ====
section
/-! DEFINITION. The wall state, its targets and values, the update items, the digest, and the state blocks
(spec/01_the_wall_state_and_its_digest.md; R108). -/

namespace Sys2Proof.Machine

/-- A colour (R2). -/
structure Colour where
  red : Byte
  green : Byte
  blue : Byte
  deriving DecidableEq, Repr

/-- Black, (0, 0, 0). -/
def black : Colour := ⟨0, 0, 0⟩

/-- The 32 two-bit codes of a pointer row, column 0 in bits 63 and 62, as R6, R168 and R170 all lay them out. -/
abbrev RowCodes := BitVec 64

/-- The code of a column of a row (R4). -/
def rowCode (row : RowCodes) (column : Fin 32) : BitVec 2 :=
  row.extractLsb' (62 - 2 * column.val) 2

/-- A pointer position; each coordinate is 0 to 32767 (R2). -/
structure Position where
  x : BitVec 15
  y : BitVec 15
  deriving DecidableEq, Repr

/-- Pointer visibility (R2). -/
inductive Visibility where
  | hidden
  | shown
  deriving DecidableEq, Repr

/-- The 294 targets (R1). -/
inductive Target where
  | slot (s : Fin 260)
  | row (r : Fin 32)
  | position
  | visibility
  deriving DecidableEq, Repr

/-- The number of a target (R1). -/
def Target.number : Target → Nat
  | .slot s => s.val
  | .row r => 260 + r.val
  | .position => 292
  | .visibility => 293

/-- The target of a number, if it is 0 to 293 (R1). -/
def Target.ofNumber? (n : Nat) : Option Target :=
  if h : n < 260 then some (.slot ⟨n, h⟩)
  else if h : n - 260 < 32 then some (.row ⟨n - 260, h⟩)
  else if n = 292 then some .position
  else if n = 293 then some .visibility
  else none

/-- An update item: one absolute write of one target, or equally a target with a value of its kind, so that the closed
domains of R2 hold of every item (R2, R19). -/
inductive Item where
  | setSlot (s : Fin 260) (colour : Colour)
  | setRow (r : Fin 32) (codes : RowCodes)
  | setPosition (position : Position)
  | setVisibility (visibility : Visibility)
  deriving DecidableEq, Repr

/-- The target an item writes (R19). -/
def Item.target : Item → Target
  | .setSlot s _ => .slot s
  | .setRow r _ => .row r
  | .setPosition _ => .position
  | .setVisibility _ => .visibility

/-- The wall state: every target with one value (R1). -/
structure WallState where
  slots : Vector Colour 260
  rows : Vector RowCodes 32
  position : Position
  visibility : Visibility
  deriving DecidableEq, Repr

/-- The default state (R3). -/
def defaultWall : WallState :=
  ⟨Vector.replicate 260 black, Vector.replicate 32 0, ⟨0, 0⟩, .hidden⟩

/-- The present value of a target, as the item that would write it. -/
def WallState.item (w : WallState) : Target → Item
  | .slot s => .setSlot s w.slots[s]
  | .row r => .setRow r w.rows[r]
  | .position => .setPosition w.position
  | .visibility => .setVisibility w.visibility

/-- The wall state with one target replaced. -/
def WallState.write (w : WallState) : Item → WallState
  | .setSlot s c => { w with slots := w.slots.set s c }
  | .setRow r codes => { w with rows := w.rows.set r codes }
  | .setPosition p => { w with position := p }
  | .setVisibility v => { w with visibility := v }

/-! ### The digest (R5 to R8) -/

/-- Bit `i` of a byte, `i` counted from 0 as the most significant. -/
def byteBit (b : Byte) (i : Nat) : Bool := b.getLsbD (7 - i)

/-- One bit of the CRC of R5. -/
def crc32Bit (reg : BitVec 32) (bit : Bool) : BitVec 32 :=
  if reg.msb == bit then reg <<< 1 else (reg <<< 1) ^^^ 0x04C11DB7#32

/-- One byte of the CRC of R5, most significant bit first. -/
def crc32Byte (reg : BitVec 32) (b : Byte) : BitVec 32 :=
  (List.range 8).foldl (fun r i => crc32Bit r (byteBit b i)) reg

/-- The CRC of a byte string: all ones at the start, all bits inverted at the end (R5). -/
def crc32 (bytes : List Byte) : BitVec 32 :=
  ~~~(bytes.foldl crc32Byte 0xFFFFFFFF#32)

/-- A number as two bytes, high byte first (R164). -/
def twoBytes (v : BitVec 16) : List Byte := [v.extractLsb' 8 8, v.extractLsb' 0 8]

/-- A 32-bit number as four bytes, high byte first (R164). -/
def fourBytes (v : BitVec 32) : List Byte :=
  [v.extractLsb' 24 8, v.extractLsb' 16 8, v.extractLsb' 8 8, v.extractLsb' 0 8]

/-- The eight code bytes of a row; byte k holds columns 4k to 4k + 3 (R6, R168). -/
def rowBytes (row : RowCodes) : List Byte :=
  [row.extractLsb' 56 8, row.extractLsb' 48 8, row.extractLsb' 40 8, row.extractLsb' 32 8,
   row.extractLsb' 24 8, row.extractLsb' 16 8, row.extractLsb' 8 8, row.extractLsb' 0 8]

/-- The byte of a visibility (R6, R168). -/
def visibilityByte : Visibility → Byte
  | .hidden => 0x00
  | .shown => 0x01

/-- The value bytes of an item, without its target (R6; the BLOCK values of R169 are the same bytes). -/
def Item.valueBytes : Item → List Byte
  | .setSlot _ c => [c.red, c.green, c.blue]
  | .setRow _ codes => rowBytes codes
  | .setPosition p => twoBytes (p.x.zeroExtend 16) ++ twoBytes (p.y.zeroExtend 16)
  | .setVisibility v => [visibilityByte v]

/-- The string hashed for a target and its value (R6). -/
def Item.hashString (i : Item) : List Byte :=
  twoBytes (BitVec.ofNat 16 i.target.number) ++ i.valueBytes

/-- The hash h of a target and its value (R5). -/
def Item.hash (i : Item) : Digest := crc32 i.hashString

/-- All targets in ascending number (R1). -/
def allTargets : List Target :=
  (List.finRange 260).map .slot ++ (List.finRange 32).map .row ++ [.position, .visibility]

/-- The digest of a wall state as R7 defines it: the sum of h over all 294 targets. -/
def WallState.digest (w : WallState) : Digest :=
  allTargets.foldl (fun d t => d + (w.item t).hash) 0

/-- The default digest D0 (R3, R12). -/
def defaultDigest : Digest := defaultWall.digest

/-! ### The state blocks (R108) -/

/-- The targets of a state block, in the order its BLOCK body carries them (R108). -/
def blockTargets (b : Fin 66) : List Target :=
  if h : b.val < 32 then
    (List.finRange 8).map (fun k => .slot ⟨8 * b.val + k.val, by omega⟩)
  else if b.val = 32 then
    (List.finRange 4).map (fun k => .slot ⟨256 + k.val, by omega⟩)
  else if h : b.val < 65 then [.row ⟨b.val - 33, by omega⟩]
  else [.position, .visibility]

/-- The content of a state block, taken in one read (R14). -/
def WallState.block (w : WallState) (b : Fin 66) : List Item := (blockTargets b).map w.item

/-! ### Generations (R17) -/

/-- A generation with one more item: a new entry for its target, or the entry's value replaced (R19). Entries stand in
ascending target number, so that equal generations are equal data. -/
def insertItem (i : Item) : List Item → List Item
  | [] => [i]
  | j :: rest =>
    if i.target.number < j.target.number then i :: j :: rest
    else if i.target.number = j.target.number then i :: rest
    else j :: insertItem i rest

end Sys2Proof.Machine
end

