-- ==== Sys2Proof/Machine/Messages.lean ====
section
/-! DEFINITION. Wall bus messages: their content, the check, and the byte layouts with their reader and writer
(R61, R66, R167 to R169). -/

namespace Sys2Proof.Machine

/-- The five kinds of message (R61). -/
inductive MessageKind where
  | update
  | audit
  | resyncRequest
  | resyncDone
  | block
  deriving DecidableEq, Repr

/-- The body of a message (R168, R169). -/
inductive Body where
  | update (items : List Item)
  | audit (epoch : Epoch) (digest : Option Digest)
  | resyncRequest
  | resyncDone
  | block (number : Fin 66) (epoch : Epoch) (values : List Item)
  deriving DecidableEq, Repr

/-- A message: the header's rank, state and epoch, and the body; kind and body length follow from the body (R61). -/
structure Message where
  rank : Rank
  state : Reported
  epoch : Epoch
  body : Body
  deriving DecidableEq, Repr

/-- The kind of a body. -/
def Body.kind : Body → MessageKind
  | .update _ => .update
  | .audit _ _ => .audit
  | .resyncRequest => .resyncRequest
  | .resyncDone => .resyncDone
  | .block _ _ _ => .block

/-- What a body must hold to be one that a station sends: 1 to 4 items, or the values of the block's own targets in
their order (R66, R168, R169). -/
def Body.wellFormed : Body → Bool
  | .update items => 1 ≤ items.length && items.length ≤ 4
  | .block b _ values => values.map Item.target == blockTargets b
  | .audit _ _ | .resyncRequest | .resyncDone => true

/-! ### The check (R61) -/

/-- One bit of the check's CRC. -/
def crc16Bit (reg : BitVec 16) (bit : Bool) : BitVec 16 :=
  if reg.msb == bit then reg <<< 1 else (reg <<< 1) ^^^ 0x1021#16

/-- One byte of the check's CRC, most significant bit first. -/
def crc16Byte (reg : BitVec 16) (b : Byte) : BitVec 16 :=
  (List.range 8).foldl (fun r i => crc16Bit r (byteBit b i)) reg

/-- The check of header and body: start FFFFh, neither inverted nor reflected (R61). -/
def crc16 (bytes : List Byte) : BitVec 16 := bytes.foldl crc16Byte 0xFFFF#16

/-! ### Writing (R167 to R169) -/

/-- The code of a kind (R167). -/
def MessageKind.code : MessageKind → Byte
  | .update => 0x01
  | .audit => 0x02
  | .resyncRequest => 0x03
  | .resyncDone => 0x04
  | .block => 0x05

/-- The code of a sender state (R167). -/
def Reported.code : Reported → BitVec 4
  | .joining => 1
  | .inStep => 2
  | .diverged => 3

/-- An update item of an UPDATE body (R168). -/
def Item.bytes : Item → List Byte
  | .setSlot s c =>
    [BitVec.ofNat 8 (s.val / 256), BitVec.ofNat 8 (s.val % 256), c.red, c.green, c.blue]
  | .setRow r codes => [0x40#8, BitVec.ofNat 8 r.val] ++ rowBytes codes
  | .setPosition p => 0x80#8 :: (Item.setPosition p).valueBytes
  | .setVisibility v => [0xC0#8, visibilityByte v]

/-- The bytes of a body (R168, R169). -/
def Body.bytes : Body → List Byte
  | .update items => items.flatMap Item.bytes
  | .audit epoch none => twoBytes epoch
  | .audit epoch (some digest) => twoBytes epoch ++ fourBytes digest
  | .resyncRequest => []
  | .resyncDone => []
  | .block b epoch values =>
    BitVec.ofNat 8 b.val :: twoBytes epoch ++ values.flatMap Item.valueBytes

/-- The five header bytes (R167). -/
def Message.headerBytes (m : Message) : List Byte :=
  [m.body.kind.code, m.rank ++ m.state.code] ++ twoBytes m.epoch ++
    [BitVec.ofNat 8 m.body.bytes.length]

/-- A message as it goes out: header, body, check (R61, R167). -/
def Message.bytes (m : Message) : List Byte :=
  let content := m.headerBytes ++ m.body.bytes
  content ++ twoBytes (crc16 content)

/-! ### Reading (R66 to R169) -/

/-- Two bytes as a number, high byte first (R164). -/
def readTwo (high low : Byte) : BitVec 16 := high ++ low

/-- A coordinate of two bytes, if it is 0 to 32767 (R168). -/
def readCoordinate (high low : Byte) : Option (BitVec 15) :=
  if (readTwo high low).msb then none else some ((readTwo high low).truncate 15)

/-- A position of four bytes, if both coordinates are in domain (R168). -/
def readPosition (xh xl yh yl : Byte) : Option Position :=
  match readCoordinate xh xl, readCoordinate yh yl with
  | some x, some y => some ⟨x, y⟩
  | _, _ => none

/-- A visibility byte, if its code is assigned (R168). -/
def readVisibility (b : Byte) : Option Visibility :=
  if b = 0x00#8 then some .hidden else if b = 0x01#8 then some .shown else none

/-- A kind code (R167). -/
def readKind (b : Byte) : Option MessageKind :=
  if b = 0x01#8 then some .update
  else if b = 0x02#8 then some .audit
  else if b = 0x03#8 then some .resyncRequest
  else if b = 0x04#8 then some .resyncDone
  else if b = 0x05#8 then some .block
  else none

/-- A sender-state code (R167). -/
def readReported (c : BitVec 4) : Option Reported :=
  if c = 1#4 then some .joining
  else if c = 2#4 then some .inStep
  else if c = 3#4 then some .diverged
  else none

/-- Eight code bytes as a row (R168). -/
def readRow (b0 b1 b2 b3 b4 b5 b6 b7 : Byte) : RowCodes :=
  b0 ++ b1 ++ b2 ++ b3 ++ b4 ++ b5 ++ b6 ++ b7

/-- The number of the slot a SET SLOT item names: head bit 0 is slot bit 8 (R168). -/
def slotNumber (head low : Byte) : Nat := 256 * (head.extractLsb' 0 1).toNat + low.toNat

/-- One update item and the bytes after it, if the item is whole and in its domain (R168). Head bits 5 to 1, and bit 0
but for SET SLOT, are not looked at (R164). -/
def readItem : List Byte → Option (Item × List Byte)
  | [] => none
  | head :: rest =>
    if head.extractLsb' 6 2 = 0#2 then
      match rest with
      | low :: r :: g :: b :: rest' =>
        if h : slotNumber head low < 260 then some (.setSlot ⟨_, h⟩ ⟨r, g, b⟩, rest') else none
      | _ => none
    else if head.extractLsb' 6 2 = 1#2 then
      match rest with
      | row :: b0 :: b1 :: b2 :: b3 :: b4 :: b5 :: b6 :: b7 :: rest' =>
        if h : row.toNat < 32 then some (.setRow ⟨_, h⟩ (readRow b0 b1 b2 b3 b4 b5 b6 b7), rest') else none
      | _ => none
    else if head.extractLsb' 6 2 = 2#2 then
      match rest with
      | xh :: xl :: yh :: yl :: rest' => (readPosition xh xl yh yl).map (fun p => (.setPosition p, rest'))
      | _ => none
    else
      match rest with
      | v :: rest' => (readVisibility v).map (fun v => (.setVisibility v, rest'))
      | _ => none

/-- Up to `limit` items that end exactly with the bytes (R168). -/
def readItems : Nat → List Byte → Option (List Item)
  | _, [] => some []
  | 0, _ :: _ => none
  | limit + 1, b :: rest =>
    match readItem (b :: rest) with
    | none => none
    | some (i, rest') => (readItems limit rest').map (i :: ·)

/-- The values of a run of slots from `first` on, three bytes each (R169). -/
def readColours : List Target → List Byte → Option (List Item)
  | [], [] => some []
  | .slot s :: targets, r :: g :: b :: rest =>
    (readColours targets rest).map (.setSlot s ⟨r, g, b⟩ :: ·)
  | _, _ => none

/-- The values of a state block, if they match its content (R66, R169). -/
def readBlockValues (b : Fin 66) (bytes : List Byte) : Option (List Item) :=
  if b.val ≤ 32 then readColours (blockTargets b) bytes
  else if h : b.val < 65 then
    match bytes with
    | [b0, b1, b2, b3, b4, b5, b6, b7] =>
      some [.setRow ⟨b.val - 33, by omega⟩ (readRow b0 b1 b2 b3 b4 b5 b6 b7)]
    | _ => none
  else
    match bytes with
    | [xh, xl, yh, yl, v] =>
      match readPosition xh xl yh yl, readVisibility v with
      | some p, some v => some [.setPosition p, .setVisibility v]
      | _, _ => none
    | _ => none

/-- A body under its kind, if it matches it (R66, R168, R169). -/
def readBody (kind : MessageKind) (bytes : List Byte) : Option Body :=
  match kind with
  | .update => if bytes = [] then none else (readItems 4 bytes).map .update
  | .audit =>
    match bytes with
    | [eh, el] => some (.audit (readTwo eh el) none)
    | [eh, el, d3, d2, d1, d0] => some (.audit (readTwo eh el) (some (d3 ++ d2 ++ d1 ++ d0)))
    | _ => none
  | .resyncRequest => if bytes = [] then some .resyncRequest else none
  | .resyncDone => if bytes = [] then some .resyncDone else none
  | .block =>
    match bytes with
    | number :: eh :: el :: values =>
      if h : number.toNat < 66 then
        (readBlockValues ⟨_, h⟩ values).map (.block ⟨_, h⟩ (readTwo eh el))
      else none
    | _ => none

/-- Header and body without the check, if they decode (R66, R167). -/
def readContent : List Byte → Option Message
  | kind :: who :: eh :: el :: length :: body =>
    if length.toNat = body.length then
      match readKind kind, readReported (who.extractLsb' 0 4) with
      | some kind, some state =>
        (readBody kind body).map (fun b => ⟨who.extractLsb' 4 4, state, readTwo eh el, b⟩)
      | _, _ => none
    else none
  | _ => none

/-- The last two bytes read are the check (R62); the rest is header and body, and the check must verify (R61, R66). -/
def readMessage (bytes : List Byte) : Option Message :=
  let content := bytes.take (bytes.length - 2)
  if bytes.drop (bytes.length - 2) = twoBytes (crc16 content) then readContent content else none

/-- The classification of R66: the message, if it is valid in the slot of `scheduled`; none for a receive error. `read`
is none where a code violation was read in the message (R62). -/
def classify (scheduled : Rank) (read : Option (List Byte)) : Option Message :=
  match read with
  | none => none
  | some bytes =>
    match readMessage bytes with
    | none => none
    | some m => if m.rank = scheduled then some m else none

end Sys2Proof.Machine
end

