-- ==== Sys2Proof/Machine/Records.lean ====
section
/-! DEFINITION. Report records, line cues, and the return-lane words that carry them (R35, R153, R154, R171). -/

namespace Sys2Proof.Machine

/-- The events an EVENT record reports, with their arguments (R154). -/
inductive Event where
  | configFault (reason : ConfigFaultReason)
  | founded
  | joined
  | selfPromoted
  | diverged (cause : DivergeCause)
  | muted (cause : MuteCause)
  | peerFound (rank : Rank)
  | peerLost (rank : Rank)
  | epochSlip (old new : Epoch)
  | timingJump (offset : Int)
  | tornApply (epoch : Epoch)
  | auditLate (epoch : Epoch)
  | sourceShort (line : Nat)
  | sourceLong (line : Nat)
  deriving DecidableEq, Repr

/-- The summary of one membership entry (R86, R148). -/
structure Summary where
  presence : Presence
  reported : Option Reported
  verdict : Verdict
  deriving DecidableEq, Repr

/-- The fields of a STATUS record after the tag (R148). -/
structure StatusFields where
  state : StationState
  rank : Option Rank
  epoch : Option Epoch
  lastOffset : Option Int
  occupancy : Nat
  inFlight : Nat
  suspect : Bool
  requester : Bool
  receivedBlocks : Nat
  cursor : Nat
  membership : List Summary
  deriving DecidableEq, Repr

/-- A report record without its omitted stamp (R153). -/
inductive Record where
  | accepted (tag : Tag)
  | refused (tag : Tag) (reason : RefusalReason)
  | settled (tag : Tag) (posted removed : Nat) (lastPosting : Option Epoch)
  | epoch (epoch : Epoch) (written : Nat) (torn : Bool) (offset : Int)
  | status (tag : Tag) (fields : StatusFields)
  | value (tag : Tag) (item : Item)
  | event (event : Event)
  deriving DecidableEq, Repr

/-- A record in the report queue, stamped with the omitted count (R151). -/
structure Stamped where
  record : Record
  omitted : Nat
  deriving DecidableEq, Repr

/-- A line cue (R35). -/
structure Cue where
  line : Nat
  active : Bool
  deriving DecidableEq, Repr

/-! ### Words (R171) -/

/-- A number placed with its lowest bit at `shift`. -/
def place (value shift : Nat) : Word := BitVec.ofNat 32 value <<< shift

/-- A flag bit. -/
def placeFlag (flag : Bool) (bit : Nat) : Word := place (if flag then 1 else 0) bit

/-- A signed quantity as a 16-bit two's-complement number (R164). -/
def signed16 (value : Int) : BitVec 16 := BitVec.ofInt 16 value

/-- The word of a line cue: bits 11 to 0 the line, bit 12 ACTIVE, marker 0 (R171). -/
def Cue.word (c : Cue) : LaneWord :=
  (0#1 ++ (place (c.line % 4096) 0 ||| placeFlag c.active 12) : BitVec 33)

/-- The code of a refusal reason (R171). -/
def RefusalReason.code : RefusalReason → Nat
  | .malformed => 1
  | .notActive => 2
  | .range => 3
  | .queueFull => 4

/-- The code of a station state in STATUS (R171). -/
def StationState.code : StationState → Nat
  | .configuring => 0
  | .configFault => 1
  | .listening => 2
  | .joining => 3
  | .inStep => 4
  | .diverged => 5
  | .muted => 6

/-- The code of a reported state in a summary (R171). -/
def reportedCode : Option Reported → Nat
  | none => 0
  | some .joining => 1
  | some .inStep => 2
  | some .diverged => 3

/-- The code of a verdict in a summary (R171). -/
def Verdict.code : Verdict → Nat
  | .none => 0
  | .matching => 1
  | .mismatch => 2

/-- A summary byte: presence in bit 4, reported state in bits 3 and 2, verdict in bits 1 and 0 (R171). -/
def Summary.byte (s : Summary) : Nat :=
  (if s.presence = .present then 16 else 0) + 4 * reportedCode s.reported + s.verdict.code

/-- Four summaries to a word, the lowest rank in bits 31 to 24 (R171). -/
def summaryWord : List Summary → Word
  | [a, b, c, d] => place a.byte 24 ||| place b.byte 16 ||| place c.byte 8 ||| place d.byte 0
  | _ => 0

/-- The seven field words of a STATUS record (R171). -/
def StatusFields.words (tag : Tag) (f : StatusFields) : List Word :=
  [ place tag.toNat 0 ||| place f.state.code 8 ||| place (f.rank.elim 0 BitVec.toNat) 16 |||
      placeFlag f.rank.isSome 20 ||| placeFlag f.suspect 24 ||| placeFlag f.requester 25 |||
      placeFlag f.epoch.isSome 26 ||| placeFlag f.lastOffset.isSome 27,
    place (f.epoch.elim 0 BitVec.toNat) 0 ||| place (f.lastOffset.elim 0 (fun m => (signed16 m).toNat)) 16,
    place f.occupancy 0 ||| place f.inFlight 8 ||| place f.receivedBlocks 16 ||| place f.cursor 24,
    summaryWord (f.membership.take 4),
    summaryWord ((f.membership.drop 4).take 4),
    summaryWord ((f.membership.drop 8).take 4),
    summaryWord ((f.membership.drop 12).take 4) ]

/-- The value words of a VALUE record (R171). R171 gives neither the order of the bits inside a colour and a row nor the
code of a visibility: they are those of R168 and R170, 00h HIDDEN and 01h SHOWN (DEDUCED, log 33). -/
def Item.valueWords : Item → List Word
  | .setSlot _ c => [place c.red.toNat 16 ||| place c.green.toNat 8 ||| place c.blue.toNat 0]
  | .setRow _ codes => [codes.extractLsb' 32 32, codes.extractLsb' 0 32]
  | .setPosition p => [place p.x.toNat 16 ||| place p.y.toNat 0]
  | .setVisibility v => [place (visibilityByte v).toNat 0]

/-- The code of a configuration fault reason (R171). -/
def ConfigFaultReason.code : ConfigFaultReason → Nat
  | .noRecord => 1
  | .badCheck => 2
  | .range => 3

/-- The code of a cause of divergence (R171). -/
def DivergeCause.code : DivergeCause → Nat
  | .receiveError => 1
  | .auditMismatch => 2

/-- The code of a cause of muting (R171). -/
def MuteCause.code : MuteCause → Nat
  | .repeatedAbort => 1
  | .duplicateRank => 2

/-- The code of an event kind, and its argument word if it has one (R171). -/
def Event.words : Event → List Word
  | .configFault r => [place 0x01 0, place r.code 0]
  | .founded => [place 0x02 0]
  | .joined => [place 0x03 0]
  | .selfPromoted => [place 0x04 0]
  | .diverged c => [place 0x05 0, place c.code 0]
  | .muted c => [place 0x06 0, place c.code 0]
  | .peerFound r => [place 0x07 0, place r.toNat 0]
  | .peerLost r => [place 0x08 0, place r.toNat 0]
  | .epochSlip old new => [place 0x09 0, place old.toNat 16 ||| place new.toNat 0]
  | .timingJump m => [place 0x0A 0, place (signed16 m).toNat 0]
  | .tornApply e => [place 0x0B 0, place e.toNat 0]
  | .auditLate e => [place 0x0C 0, place e.toNat 0]
  | .sourceShort line => [place 0x0D 0, place (line % 4096) 0]
  | .sourceLong line => [place 0x0E 0, place (line % 4096) 0]

/-- The code of a record kind (R171). -/
def Record.code : Record → Nat
  | .accepted _ => 0x01
  | .refused _ _ => 0x02
  | .settled _ _ _ _ => 0x03
  | .epoch _ _ _ _ => 0x04
  | .status _ _ => 0x05
  | .value _ _ => 0x06
  | .event _ => 0x07

/-- The field words of a record (R171). -/
def Record.fieldWords : Record → List Word
  | .accepted tag => [place tag.toNat 0]
  | .refused tag reason => [place tag.toNat 0 ||| place reason.code 8]
  | .settled tag posted removed lastPosting =>
    [ place tag.toNat 0 ||| place posted 8 ||| place removed 12 ||| placeFlag lastPosting.isSome 16,
      place (lastPosting.elim 0 BitVec.toNat) 0 ]
  | .epoch e written torn offset =>
    [ place e.toNat 0 ||| place written 16 ||| placeFlag torn 31, place (signed16 offset).toNat 0 ]
  | .status tag fields => fields.words tag
  | .value tag item => (place tag.toNat 0 ||| place item.target.number 16) :: item.valueWords
  | .event e => e.words

/-- A return-lane word of a record: marker 1 (R171). -/
def recordWord (w : Word) : LaneWord := (1#1 ++ w : BitVec 33)

/-- The words the return lane sends for a record: the head word with kind, stamp and number of field words, then the
field words (R171). -/
def Stamped.words (r : Stamped) : List LaneWord :=
  (((place r.record.code 24 ||| place r.omitted 16 ||| place r.record.fieldWords.length 0) ::
    r.record.fieldWords).map recordWord)

end Sys2Proof.Machine
end

