-- ==== Sys2Proof/Machine/Blocks.lean ====
section
/-! DEFINITION. The state of each functional block and its value after reset (R124). Fields marked MODEL are implied by
the rules named and have no register in the spec; their reset values are log 3's. -/

namespace Sys2Proof.Machine

/-- The configuration loader (R125). -/
structure Loader where
  /-- The values in effect, if a valid record has been read. -/
  config : Option Settings
  deriving DecidableEq, Repr

/-- No record is held after reset (R124). -/
def Loader.reset : Loader := ⟨none⟩

/-- A partly received command: its head word and the argument words so far (R139). -/
structure Assembly where
  head : Word
  args : List Word
  deriving DecidableEq, Repr

/-- The source port (R139, R150, R152). -/
structure SourcePort where
  assembly : Option Assembly
  /-- The report queue, oldest first. -/
  reports : List Stamped
  /-- The omitted count. -/
  omitted : Nat
  /-- MODEL: the line cue last put on the return lane (R152). -/
  cue : Option Cue
  /-- MODEL: the words of the record the return lane finished last (R152, R171). -/
  sentWords : List LaneWord
  deriving DecidableEq, Repr

/-- R150, R139 and R152 after reset. -/
def SourcePort.reset : SourcePort := ⟨none, [], 0, none, []⟩

/-- An item of the proposal queue with the tag of the command that made it (R72). -/
structure QueuedItem where
  item : Item
  tag : Tag
  deriving DecidableEq, Repr

/-- A posting account (R72). -/
structure Account where
  tag : Tag
  made : Nat
  posted : Nat
  removed : Nat
  lastPosting : Option Epoch
  deriving DecidableEq, Repr

/-- The command unit (R72). -/
structure CommandUnit where
  /-- The proposal queue, oldest first, in-flight batch included. -/
  queue : List QueuedItem
  /-- How many of the oldest items are the in-flight batch; 0 for none. -/
  inFlight : Nat
  withdrawMark : Bool
  /-- The posting accounts, oldest first. -/
  accounts : List Account
  lastWasBlock : Bool
  deriving DecidableEq, Repr

/-- R72 after reset. -/
def CommandUnit.reset : CommandUnit := ⟨[], 0, false, [], false⟩

/-- The round state (R49). -/
inductive RoundState where
  | off
  | seeking
  | idle
  | fields
  | data
  | gap
  deriving DecidableEq, Repr

/-- MODEL: which field of the round comes next (section 4.3). -/
inductive FieldPosition where
  | origin
  | markSlot
  | epoch
  | reservation
  /-- The reservation field, after this station's send selection. -/
  | selected
  deriving DecidableEq, Repr

/-- MODEL: what this station drives on the wall bus at present (R50). -/
inductive Drive where
  | recessive
  | startPulse
  | reservationBit
  | message (m : Message)
  | abortPattern
  deriving DecidableEq, Repr

/-- MODEL: how far the count of recessive bit times is known to have come (R51). -/
inductive RecessiveCount where
  | below
  | idleGap
  | seekGap
  deriving DecidableEq, Repr

/-- The wall bus controller (R49). -/
structure BusController where
  round : RoundState
  /-- The next-origin belief; in a round, its origin (R53). -/
  belief : Rank
  schedule : List Rank
  chosen : Option MessageKind
  /-- The consecutive-abort count. -/
  aborts : Nat
  suspect : Bool
  field : FieldPosition
  /-- MODEL: how many scheduled slots of the round have ended (R58). -/
  slot : Nat
  /-- MODEL: this station drives in the round in progress (R57). -/
  driving : Bool
  drive : Drive
  /-- MODEL: what a station that stopped driving within the field in progress had driven on it; else all ones, which is
  recessive (R57, log 29). -/
  partDriven : BitVec 16
  /-- MODEL: a start pulse was read in the slot in progress (R51). -/
  slotDamaged : Bool
  recessive : RecessiveCount
  deriving DecidableEq, Repr

/-- R49 after reset. -/
def BusController.reset : BusController :=
  { round := .off, belief := 15, schedule := [], chosen := none, aborts := 0, suspect := false
    field := .origin, slot := 0, driving := false, drive := .recessive, partDriven := BitVec.allOnes 16
    slotDamaged := false, recessive := .below }

/-- The frame phase (R32). -/
inductive FramePhase where
  | waiting
  | ended
  | covered
  deriving DecidableEq, Repr

/-- The epoch timer (R32). -/
structure EpochTimer where
  running : Bool
  line : Nat
  /-- The epoch number, or unknown. -/
  epoch : Option Epoch
  markPending : Bool
  phase : FramePhase
  lastOffset : Option Int
  deriving DecidableEq, Repr

/-- R32 after reset. -/
def EpochTimer.reset : EpochTimer := ⟨false, 0, none, false, .waiting, none⟩

/-- A PENDING closed generation (R17). -/
structure ClosedGeneration where
  items : List Item
  epoch : Epoch
  offset : Int
  deriving DecidableEq, Repr

/-- The wall state store (R1, R7, R17). -/
structure WallStore where
  wall : WallState
  digest : Digest
  /-- The open generation. -/
  opened : List Item
  /-- The closed generation: none is EMPTY, some is PENDING. -/
  closed : Option ClosedGeneration
  /-- The staging flag: true is OPEN. -/
  staging : Bool
  deriving DecidableEq, Repr

/-- R12 and R17 after reset. -/
def WallStore.reset : WallStore := ⟨defaultWall, defaultDigest, [], none, false⟩

/-- An entry of the membership table (R86). -/
structure Peer where
  presence : Presence
  reported : Option Reported
  lastHeard : Option Epoch
  verdict : Verdict
  requester : Bool
  deriving DecidableEq, Repr

/-- An entry at its initial values (R86). -/
def Peer.initial : Peer := ⟨.absent, none, none, .none, false⟩

/-- Digest AUDIT or heartbeat (R93). -/
inductive AuditKind where
  | digest
  | heartbeat
  deriving DecidableEq, Repr

/-- The own audit stage, with the own audit kind while it has one (R93). A stage that waits carries the kind it comes due
with: a digest, or a heartbeat once the station became DIVERGED while it waited (R95, R131). -/
inductive AuditStage where
  | none
  | awaitingApply (due : AuditKind)
  | pending (kind : AuditKind)
  | sent (kind : AuditKind)
  deriving DecidableEq, Repr

/-- An OPEN audit window: its epoch and the marks sampled since its opening (R93). -/
structure AuditWindow where
  epoch : Epoch
  marks : Nat
  deriving DecidableEq, Repr

/-- The own audit record (R93). -/
structure AuditRecord where
  epoch : Epoch
  digest : Digest
  deriving DecidableEq, Repr

/-- The membership unit (R86, R93). -/
structure Membership where
  table : Vector Peer 16
  /-- The window: none is CLOSED. -/
  window : Option AuditWindow
  stage : AuditStage
  record : Option AuditRecord
  /-- The audit tally: the digest of each rank that has an entry. -/
  tally : Vector (Option Digest) 16
  deriving DecidableEq, Repr

/-- The empty tally. -/
def emptyTally : Vector (Option Digest) 16 := Vector.replicate 16 none

/-- R86 and R93 after reset. -/
def Membership.reset : Membership := ⟨Vector.replicate 16 Peer.initial, none, .none, none, emptyTally⟩

/-- The resync unit (R104). -/
structure ResyncUnit where
  /-- The received-block set: whether each block number is a member. -/
  received : Vector Bool 66
  /-- The carousel cursor. -/
  cursor : Fin 66
  /-- The provider-wait counter. -/
  wait : Nat
  blockSeen : Bool
  epochBlock : Bool
  requestPending : Bool
  donePending : Bool
  deriving DecidableEq, Repr

/-- The empty received-block set. -/
def noBlocks : Vector Bool 66 := Vector.replicate 66 false

/-- R104 after reset. -/
def ResyncUnit.reset : ResyncUnit := ⟨noBlocks, 0, 0, false, false, false, false⟩

/-- The station controller (R123). -/
structure StationController where
  state : StationState
  listenCount : Nat
  deriving DecidableEq, Repr

/-- R123 after reset. -/
def StationController.reset : StationController := ⟨.configuring, 0⟩

/-- A filled line-buffer entry (R156). -/
inductive Pixel where
  | index (i : Byte)
  | direct (overlay : Byte) (colour : Colour)
  deriving DecidableEq, Repr

/-- A line buffer: its filled entries, which are its first ones; every further entry is UNFILLED (R156, R157). -/
abbrev LineBuffer := List Pixel

/-- The fill count of a buffer (R156). -/
def LineBuffer.count (b : LineBuffer) : Nat := b.length

/-- The pixel path (R156). -/
structure PixelPath where
  /-- The fill buffer. -/
  fill : LineBuffer
  /-- The show buffer. -/
  shown : LineBuffer
  shortFlag : Bool
  longFlag : Bool
  deriving DecidableEq, Repr

/-- R156 after reset. -/
def PixelPath.reset : PixelPath := ⟨[], [], false, false⟩

end Sys2Proof.Machine
end

