-- ==== Sys2Proof/Machine/State.lean ====
section
/-! DEFINITION. The state of one station, the reasons a step can stop (there is no fault), and the state after reset. -/

namespace Sys2Proof.Machine

/-- One station: its nine functional blocks with state (R124's table and the pixel path), and the commands waiting. -/
structure State where
  loader : Loader
  port : SourcePort
  command : CommandUnit
  bus : BusController
  timer : EpochTimer
  store : WallStore
  members : Membership
  resync : ResyncUnit
  station : StationController
  pixel : PixelPath
  /-- MODEL: how many free choices of order have been taken (`Config.choice`, log 8). -/
  choices : Nat
  /-- The commands waiting, first in first out. -/
  pending : List Instr
  deriving DecidableEq, Repr

/-- The spec stops the part for nothing: every error is an effect on the state, so no command raises a fault and there
is none to name (log 7). -/
inductive Fault where
  deriving DecidableEq, Repr

/-- The refusals. -/
inductive Refusal where
  /-- Raised by `exec` alone, for a row that has no meaning yet; safe. No arm raises it. -/
  | notModelled (mnemonic : String)
  deriving DecidableEq, Repr

/-- The station right after reset (R124): every block at its reset value, CONFIGURING, nothing waiting. -/
def State.reset : State :=
  { loader := Loader.reset
    port := SourcePort.reset
    command := CommandUnit.reset
    bus := BusController.reset
    timer := EpochTimer.reset
    store := WallStore.reset
    members := Membership.reset
    resync := ResyncUnit.reset
    station := StationController.reset
    pixel := PixelPath.reset
    choices := 0
    pending := [] }

end Sys2Proof.Machine
end

