-- ==== Sys2Proof/Machine/Flags.lean ====
section
/-! DEFINITION. The conditions the rules test on a station's state: activity, eligibility, provider, the requester set,
the send selection and the start reason, and what the station drives in each field of a round. -/

namespace Sys2Proof.Machine

/-- The configured rank, none before configuration (R125, R148). -/
def State.rank? (s : State) : Option Rank := s.loader.config.map Settings.rank

/-- The station is active (R123). -/
def State.active (s : State) : Bool := s.station.state.active

/-- The station drives in the round in progress: active, and so since its start pulse (R57). -/
def State.drives (s : State) : Bool := s.active && s.bus.driving

/-- The epoch is an audit epoch (R94). -/
def auditEpoch (c : Settings) (e : Epoch) : Bool := e.toNat % c.auditInterval = 0

/-! ### Eligibility and the requester set -/

/-- The entry of a rank (R86). -/
def State.peer (s : State) (r : Rank) : Peer := atRank s.members.table r

/-- The entry of a rank is eligible; the own entry only while the station itself is IN STEP (R92). -/
def State.eligible (s : State) (r : Rank) : Bool :=
  (s.peer r).presence = .present && (s.peer r).reported = some .inStep &&
    (s.peer r).verdict ≠ .mismatch && (s.rank? ≠ some r || s.station.state = .inStep)

/-- The lowest eligible rank, if there is one (R92). -/
def State.lowestEligible (s : State) : Option Rank := allRanks.find? s.eligible

/-- The table holds an eligible rank (R118). -/
def State.anyEligible (s : State) : Bool := allRanks.any s.eligible

/-- The requester set, in ascending rank (section 7.2). -/
def State.requesters (s : State) : List Rank := allRanks.filter (fun r => (s.peer r).requester)

/-- The station is provider (R110). -/
def State.provider (s : State) : Bool :=
  s.station.state = .inStep && s.rank?.isSome && s.lowestEligible = s.rank?

/-- The own requester flag (R148). -/
def State.ownRequester (s : State) : Bool := s.rank?.elim false (fun r => (s.peer r).requester)

/-! ### The send selection -/

/-- An AUDIT is pending exactly when the stage is PENDING (R93). -/
def AuditStage.isPending : AuditStage → Bool
  | .pending _ => true
  | .none | .awaitingApply _ | .sent _ => false

/-- The first candidate whose condition holds (R74), with the alternation of R75 at candidate 4. The next round a station
takes part in, from which R107 has a RESYNC REQUEST compete, is the one of its next send selection (R52, section 5.8;
DEDUCED, log 34), so candidate 3 is the pending flag, as R74 has it. -/
def State.candidate (s : State) : Option MessageKind :=
  if s.resync.donePending then some .resyncDone
  else if s.members.stage.isPending then some .audit
  else if s.resync.requestPending then some .resyncRequest
  else if s.provider && s.requesters ≠ [] && s.store.closed.isNone then
    if s.command.queue = [] || !s.command.lastWasBlock then some .block else some .update
  else if s.command.queue ≠ [] then some .update
  else none

/-- An active station's reason to start a round (R52). -/
def State.startReason (s : State) : Bool := s.timer.markPending || s.candidate.isSome

/-! ### What the station drives in the fields -/

/-- All bits recessive: what a station that drives nothing leaves on a field. -/
def recessiveField (w : Nat) : BitVec w := BitVec.allOnes w

/-- The origin field as this station drives it: whole, or the part it drove before it stopped (R53, R57). -/
def State.originDrive (s : State) : BitVec 4 := if s.drives then s.bus.belief else s.bus.partDriven.setWidth 4

/-- The mark slot as this station drives it (R54). -/
def State.markDrive (s : State) : Level := if s.drives && s.timer.markPending then .dominant else .recessive

/-- The value this station drives in the epoch field, or none where it drives nothing (R39, R55). -/
def State.epochDrive (s : State) : Option Epoch := if s.drives then s.timer.epoch.map (· + 1) else none

/-- The reservation field as this station drives it: its own rank's bit dominant if it has chosen a message, or the part
it drove before it stopped (R56, R57). -/
def State.reservationDrive (s : State) : BitVec 16 :=
  match s.rank? with
  | some r => if s.drives && s.bus.chosen.isSome then ~~~(1#16 <<< r.toNat) else s.bus.partDriven
  | none => s.bus.partDriven

/-- The first `n` bits of a field of `w` bits sent most significant bit first, the others recessive (R53, R55). -/
def highBits (w n : Nat) (field : BitVec 16) : BitVec 16 := field ||| BitVec.ofNat 16 (2 ^ (w - n) - 1)

/-- The first `n` bits of the reservation field, of which bit 0 is sent first, the others recessive (R56). -/
def lowBits (n : Nat) (field : BitVec 16) : BitVec 16 := field ||| BitVec.allOnes 16 <<< n

/-- The station drives in the field sequence of a round. -/
def State.inFields (s : State) : Bool := s.drives && s.bus.round = .fields

/-- What the station has driven so far on the field in progress: its first bits, as many as a free choice says, since a
command may be taken at any bit of a field (R57, R65, log 29). The first bit of the reservation field is sent at the send
selection; before it, and in the one bit of the mark slot, nothing is part driven. -/
def State.drivenSoFar (s : State) : BitVec 16 :=
  let n := Config.choice s.choices
  if s.inFields then
    match s.bus.field with
    | .origin => highBits 4 (n % 5) (s.bus.belief.setWidth 16)
    | .epoch => highBits 16 (n % 17) (s.epochDrive.getD (recessiveField 16))
    | .selected => lowBits (1 + n % 16) s.reservationDrive
    | .markSlot | .reservation => recessiveField 16
  else s.bus.partDriven

/-- The wired AND of two levels (R50). -/
def wiredAnd : Level → Level → Level
  | .recessive, .recessive => .recessive
  | .dominant, _ => .dominant
  | .recessive, .dominant => .dominant

/-- The value the bus carries in the epoch field: the wired AND of what the others and this station drive, or drove before
it stopped (R39, R57). -/
def State.busEpoch (s : State) (others : Epoch) : Epoch := others &&& s.epochDrive.getD s.bus.partDriven

/-- The schedule of a reservation field: the ranks whose bits are dominant, ordered by (rank - origin) modulo 16 (R56). -/
def scheduleOf (origin : Rank) (bus : BitVec 16) : List Rank :=
  (allRanks.map (origin + ·)).filter (fun r => !bus.getLsbD r.toNat)

/-- The rank whose slot is open or comes next, in the data phase (R58). -/
def State.slotRank (s : State) : Option Rank :=
  if s.bus.round = .data then s.bus.schedule[s.bus.slot]? else none

/-- The station is transmitting a message (R59). -/
def Drive.transmitting : Drive → Option Message
  | .message m => some m
  | .recessive | .startPulse | .reservationBit | .abortPattern => none

end Sys2Proof.Machine
end

