-- ==== Sys2Proof/Machine/Operands.lean ====
section
/-! DEFINITION. The operand forms: the configuration record (R165, R166), the forward-lane words (R170), and the
commands they make with the items each command asks for (R139 to R147). -/

namespace Sys2Proof.Machine

/-! ### The configuration record -/

/-- Byte `i` of a record as a number. -/
def recordByte (bytes : List Byte) (i : Nat) : Nat := (bytes.getD i 0).toNat

/-- The two-byte number at byte `i` (R164). -/
def recordNumber (bytes : List Byte) (i : Nat) : Nat :=
  256 * recordByte bytes i + recordByte bytes (i + 1)

/-- The sum of bytes 0 to 16 modulo 256 (R165). -/
def recordSum (bytes : List Byte) : Byte := (bytes.take 17).foldl (· + ·) 0

/-- The pixel format of byte 12 (R165). -/
def formatOf (code : Nat) : PixelFormat := if code = 1 then .direct else .index

/-- The values of a record as read (R165). -/
def settingsOf (bytes : List Byte) : Settings :=
  { rank := BitVec.ofNat 4 (recordByte bytes 1)
    originX := recordNumber bytes 2
    originY := recordNumber bytes 4
    width := recordNumber bytes 6
    totalLines := recordNumber bytes 8
    activeLines := recordNumber bytes 10
    format := formatOf (recordByte bytes 12)
    auditInterval := recordByte bytes 13
    silenceLimit := recordByte bytes 14
    slewLimit := recordByte bytes 15
    lockWindow := recordByte bytes 16 }

/-- The ranges of R165 that bind the values themselves. -/
def settingsInRange (c : Settings) : Bool :=
  c.originX ≤ 32767 && c.originY ≤ 32767 && 64 ≤ c.width && c.width ≤ 4096 &&
  16 ≤ c.totalLines && c.totalLines ≤ 4095 && 8 ≤ c.activeLines && c.activeLines + 8 ≤ c.totalLines &&
  [2, 4, 8, 16, 32, 64].contains c.auditInterval &&
  2 * c.auditInterval + 2 ≤ c.silenceLimit && c.silenceLimit ≤ 255 &&
  1 ≤ c.slewLimit && c.slewLimit ≤ 8 &&
  c.slewLimit ≤ c.lockWindow && c.lockWindow ≤ min 64 (c.totalLines - c.activeLines)

/-- The outcome of the three tests of R166. -/
inductive ConfigRead where
  | valid (c : Settings)
  | fault (reason : ConfigFaultReason)
  deriving DecidableEq, Repr

/-- The presence test: the memory answers, at least 18 bytes could be read, and byte 0 is A7h (R166). -/
def recordPresent (bytes : List Byte) : Bool := 18 ≤ bytes.length && bytes.getD 0 0 = 0xA7#8

/-- The range test: every field within the permitted values of R165 (R166). -/
def recordInRange (bytes : List Byte) : Bool :=
  recordByte bytes 1 ≤ 15 && recordByte bytes 12 ≤ 1 && settingsInRange (settingsOf bytes)

/-- The validation of a read (R166). Bytes beyond 17 are not read (R165), and no test looks at them. -/
def validate : Option (List Byte) → ConfigRead
  | none => .fault .noRecord
  | some bytes =>
    if !recordPresent bytes then .fault .noRecord
    else if bytes.getD 17 0 ≠ recordSum bytes then .fault .badCheck
    else if !recordInRange bytes then .fault .range
    else .valid (settingsOf bytes)

/-! ### Pixel words -/

/-- The pixel of a payload in the configured format (R170). -/
def pixelOf (format : PixelFormat) (w : Word) : Pixel :=
  match format with
  | .index => .index (w.extractLsb' 0 8)
  | .direct => .direct (w.extractLsb' 24 8) ⟨w.extractLsb' 16 8, w.extractLsb' 8 8, w.extractLsb' 0 8⟩

/-! ### Commands -/

/-- The kind of a head word (R170). -/
def headKind (head : Word) : Byte := head.extractLsb' 24 8

/-- The tag of a head word (R170). -/
def headTag (head : Word) : Tag := head.extractLsb' 18 6

/-- The number of argument words a head word announces (R170). -/
def headLength (head : Word) : Nat := (head.extractLsb' 0 8).toNat

/-- A complete command (R139): its head word's kind and tag, and its argument words. -/
structure Command where
  kind : Byte
  tag : Tag
  args : List Word
  deriving DecidableEq, Repr

/-- What a command word makes of the command being assembled: still incomplete, or complete (R139). -/
inductive Assembled where
  | incomplete (a : Assembly)
  | complete (c : Command)
  deriving DecidableEq, Repr

/-- A command is complete when the number of words its head gives has arrived (R139). -/
def Assembly.close (a : Assembly) : Assembled :=
  if headLength a.head ≤ a.args.length then .complete ⟨headKind a.head, headTag a.head, a.args⟩ else .incomplete a

/-- One command word: a new head word, or the next argument word of the command being assembled (R139). -/
def assemble : Option Assembly → Word → Assembled
  | none, w => Assembly.close ⟨w, []⟩
  | some a, w => Assembly.close { a with args := a.args ++ [w] }

/-- The eight command kinds (R170). -/
inductive CommandKind where
  | setColors
  | setPointerRow
  | movePointer
  | pointerVisibility
  | withdraw
  | readTarget
  | status
  | rejoin
  deriving DecidableEq, Repr

/-- The kind of a kind code (R170). -/
def commandKind (code : Byte) : Option CommandKind :=
  if code = 0x01#8 then some .setColors
  else if code = 0x02#8 then some .setPointerRow
  else if code = 0x03#8 then some .movePointer
  else if code = 0x04#8 then some .pointerVisibility
  else if code = 0x05#8 then some .withdraw
  else if code = 0x06#8 then some .readTarget
  else if code = 0x07#8 then some .status
  else if code = 0x08#8 then some .rejoin
  else none

/-- What the arguments of an item-making command ask for (R140): wrong length, an argument out of its domain, or items. -/
inductive Request where
  | malformed
  | outOfRange
  | items (items : List Item)
  deriving DecidableEq, Repr

/-- The first slot of a SET COLORS (R170). -/
def firstSlot (w : Word) : Nat := (w.extractLsb' 16 16).toNat

/-- The count of a SET COLORS (R170). -/
def colourCount (w : Word) : Nat := (w.extractLsb' 0 8).toNat

/-- The colour of an argument word (R170). -/
def wordColour (w : Word) : Colour := ⟨w.extractLsb' 16 8, w.extractLsb' 8 8, w.extractLsb' 0 8⟩

/-- One SET SLOT for each colour, from slot `first` on, if every slot exists (R142). -/
def slotItems (first : Nat) : List Word → Option (List Item)
  | [] => some []
  | w :: rest =>
    if h : first < 260 then (slotItems (first + 1) rest).map (.setSlot ⟨first, h⟩ (wordColour w) :: ·) else none

/-- SET COLORS (R142, R170). -/
def setColorsRequest : List Word → Request
  | [] => .malformed
  | w :: colours =>
    if colours.length ≠ colourCount w then .malformed
    else if colourCount w = 0 || 8 < colourCount w || 259 < firstSlot w then .outOfRange
    else
      match slotItems (firstSlot w) colours with
      | some items => .items items
      | none => .outOfRange

/-- SET POINTER ROW (R143, R170). -/
def setPointerRowRequest : List Word → Request
  | [row, high, low] =>
    if h : (row.extractLsb' 0 8).toNat < 32 then .items [.setRow ⟨_, h⟩ (high ++ low)] else .outOfRange
  | _ => .malformed

/-- MOVE POINTER (R144, R170). -/
def movePointerRequest : List Word → Request
  | [w] =>
    if w.getLsbD 31 || w.getLsbD 15 then .outOfRange
    else .items [.setPosition ⟨w.extractLsb' 16 15, w.extractLsb' 0 15⟩]
  | _ => .malformed

/-- POINTER VISIBILITY (R145, R170). -/
def pointerVisibilityRequest : List Word → Request
  | [w] =>
    match readVisibility (w.extractLsb' 0 8) with
    | some v => .items [.setVisibility v]
    | none => .outOfRange
  | _ => .malformed

/-- The target number of a READ TARGET (R170). -/
def targetNumber (w : Word) : Nat := (w.extractLsb' 0 16).toNat

/-! ### Forward-lane words -/

/-- The row of the table that takes a forward-lane word in a state: bit 32 is the marker (R138, R170); a command word
that completes a command belongs to the row of its kind (R139, R140). -/
def State.forwardRow (s : State) (w : LaneWord) : Instr :=
  let payload := w.extractLsb' 0 32
  if w.getLsbD 32 then
    match assemble s.port.assembly payload with
    | .incomplete _ => .commandWord payload
    | .complete c =>
      match commandKind c.kind with
      | none => .unknownCommand payload
      | some .setColors => .setColors payload
      | some .setPointerRow => .setPointerRow payload
      | some .movePointer => .movePointer payload
      | some .pointerVisibility => .pointerVisibility payload
      | some .withdraw => .withdraw payload
      | some .readTarget => .readTarget payload
      | some .status => .status payload
      | some .rejoin => .rejoin payload
  else .pixelWord payload

end Sys2Proof.Machine
end

