-- ==== Sys2Proof/Machine/Ops.lean ====
section
/-! DEFINITION. The shared operations: queuing records, posting accounts, writing the wall state, applying a generation,
line starts, the outcomes of a chosen message, and the changes of station state with the entry actions of every block.
An operation on one block is a function of that block; the operation on the state replaces just that block. -/

namespace Sys2Proof.Machine

/-! ### The report queue (R150, R151) -/

/-- Queue one record: at the tail with the omitted count as its stamp, or counted as omitted if the queue is full (R151). -/
def SourcePort.enqueue (p : SourcePort) (r : Record) : SourcePort :=
  if p.reports.length < Config.reportCapacity then
    { p with reports := p.reports ++ [⟨r, p.omitted⟩], omitted := 0 }
  else { p with omitted := min Config.omittedLimit (p.omitted + 1) }

/-- Queue several records one by one, in order (R151). -/
def SourcePort.enqueueAll (p : SourcePort) (rs : List Record) : SourcePort := rs.foldl SourcePort.enqueue p

/-- Queue one record. -/
def State.report (s : State) (r : Record) : State := { s with port := s.port.enqueue r }

/-- Queue several records. -/
def State.reportAll (s : State) (rs : List Record) : State := { s with port := s.port.enqueueAll rs }

/-! ### Free orders (R121, R150) -/

/-- Two blocks queue records in one event: `records` are queued before or after what `act` queues, by a free choice where
both queue some (R150). The choice decides nothing but that order. -/
def State.eitherOrder (s : State) (records : List Record) (queues : Bool) (act : State → State) : State :=
  if records = [] || !queues then (act s).reportAll records
  else
    { act s with
      port := if Config.choice s.choices % 2 = 0 then (act (s.reportAll records)).port else (act s).port.enqueueAll records
      choices := s.choices + 1 }

/-! ### The membership table (R86 to R88) -/

/-- The table with one entry changed. -/
def Membership.update (m : Membership) (r : Rank) (f : Peer → Peer) : Membership :=
  { m with table := setRank m.table r (f (atRank m.table r)) }

/-- The table with the own entry changed; a station without a rank has none. -/
def Membership.updateOwn (m : Membership) (rank : Option Rank) (f : Peer → Peer) : Membership :=
  match rank with
  | some r => m.update r f
  | none => m

/-- An entry that becomes PRESENT (R87, R88). -/
def Peer.found (p : Peer) : Peer := { p with presence := .present }

/-- An entry that takes a reported state; a change of it makes the verdict NONE (R88). -/
def Peer.reports (p : Peer) (state : Reported) : Peer :=
  { p with reported := some state, verdict := if p.reported = some state then p.verdict else .none }

/-- The own entry of a station that takes an active state: PRESENT, the reported state following the station state, and
its verdict NONE with the change (R87, R101, R128, R131). -/
def Peer.ownActive (p : Peer) (state : Reported) : Peer :=
  { p with presence := .present, reported := some state, verdict := .none }

/-- The own entry of a station that becomes IN STEP: its requester flag is cleared too (R106, R116, R119, R129). -/
def Peer.ownInStep (p : Peer) : Peer := { p.ownActive .inStep with requester := false }

/-! ### Posting accounts (R72, R78 to R81, R85) -/

/-- The command's items still in the queue. -/
def Account.remaining (a : Account) : Nat := a.made - a.posted - a.removed

/-- The SETTLED record of an account (R85). -/
def Account.settled (a : Account) : Record := .settled a.tag a.posted a.removed a.lastPosting

/-- `n` more items posted, in a batch of epoch `e` (R78). -/
def Account.post (a : Account) (n : Nat) (e : Option Epoch) : Account :=
  { a with posted := a.posted + n, lastPosting := if n = 0 then a.lastPosting else e }

/-- `n` more items removed (R79 to R81). -/
def Account.remove (a : Account) (n : Nat) : Account := { a with removed := a.removed + n }

/-- The oldest `n` items leave as posted. Items leave in queue order and accounts stand in intake order, so they belong
to the first accounts that have items left (R72, R78). -/
def postOldest (e : Option Epoch) : Nat → List Account → List Account
  | _, [] => []
  | n, a :: rest => a.post (min n a.remaining) e :: postOldest e (n - a.remaining) rest

/-- The oldest `n` items leave as removed (R79). -/
def removeOldest : Nat → List Account → List Account
  | _, [] => []
  | n, a :: rest => a.remove (min n a.remaining) :: removeOldest (n - a.remaining) rest

/-- Every item but the oldest `n` leaves as removed (R80, R81). -/
def removeBehind : Nat → List Account → List Account
  | _, [] => []
  | n, a :: rest => a.remove (a.remaining - n) :: removeBehind (n - a.remaining) rest

/-- The SETTLED records of the accounts with no item left, in intake order (R85). -/
def settledRecords (accounts : List Account) : List Record :=
  (accounts.filter (fun a => a.remaining = 0)).map Account.settled

/-- The accounts with items left. -/
def openAccounts (accounts : List Account) : List Account := accounts.filter (fun a => a.remaining ≠ 0)

/-- The batch goes CLEAN: its items leave as posted (R78). -/
def CommandUnit.batchClean (e : Option Epoch) (u : CommandUnit) : CommandUnit × List Record :=
  let accounts := postOldest e u.inFlight u.accounts
  ({ u with queue := u.queue.drop u.inFlight, inFlight := 0, withdrawMark := false, accounts := openAccounts accounts },
   settledRecords accounts)

/-- The batch is ABORTED: its items stay at the head of the queue, or leave as removed if a WITHDRAW marked them (R79). -/
def CommandUnit.batchAborted (u : CommandUnit) : CommandUnit × List Record :=
  if u.withdrawMark then
    let accounts := removeOldest u.inFlight u.accounts
    ({ u with queue := u.queue.drop u.inFlight, inFlight := 0, withdrawMark := false, accounts := openAccounts accounts },
     settledRecords accounts)
  else ({ u with inFlight := 0, withdrawMark := false }, [])

/-- The drop of the queue: every item leaves as removed and every account is settled (R80). -/
def CommandUnit.dropAll (u : CommandUnit) : CommandUnit × List Record :=
  ({ queue := [], inFlight := 0, withdrawMark := false, accounts := [], lastWasBlock := false },
   (removeBehind 0 u.accounts).map Account.settled)

/-- WITHDRAW: every item outside the in-flight batch leaves as removed; the mark is set if a batch is in flight (R81). -/
def CommandUnit.withdrawn (u : CommandUnit) : CommandUnit × List Record :=
  let accounts := removeBehind u.inFlight u.accounts
  ({ u with queue := u.queue.take u.inFlight, withdrawMark := u.withdrawMark || u.inFlight ≠ 0
            accounts := openAccounts accounts },
   settledRecords accounts)

/-- The intake of a command's items, with its account (R73). -/
def CommandUnit.intake (u : CommandUnit) (tag : Tag) (items : List Item) : CommandUnit :=
  { u with queue := u.queue ++ items.map (⟨·, tag⟩), accounts := u.accounts ++ [⟨tag, items.length, 0, 0, none⟩] }

/-- The in-flight batch is taken: the four oldest items, or all of fewer (R77). -/
def CommandUnit.takeBatch (u : CommandUnit) : CommandUnit := { u with inFlight := min Config.batchLimit u.queue.length }

/-- An event of the command unit with the records it queues. -/
def State.runUnit (s : State) (f : CommandUnit → CommandUnit × List Record) : State :=
  { s with command := (f s.command).1, port := s.port.enqueueAll (f s.command).2 }

/-! ### The wall state store (R8, R10, R19, R25 to R27) -/

/-- A write of one target with the digest corrected in the same event (R8). -/
def WallStore.write (st : WallStore) (i : Item) : WallStore :=
  { st with wall := st.wall.write i, digest := st.digest - (st.wall.item i.target).hash + i.hash }

/-- A write of several targets (R10, R11). -/
def WallStore.writeAll (st : WallStore) (items : List Item) : WallStore := items.foldl WallStore.write st

/-- The default load with both generations emptied and the staging flag CLOSED (R12, R30). -/
def WallStore.defaultLoad (_ : WallStore) : WallStore := WallStore.reset

/-- The items of an UPDATE body are taken into the open generation in body order, if the staging flag is OPEN
(R19, R21). -/
def WallStore.stage (st : WallStore) (items : List Item) : WallStore :=
  if st.staging then { st with opened := items.foldl (fun g i => insertItem i g) st.opened } else st

/-- The staging opens with an empty open generation (R18). -/
def WallStore.openStaging (st : WallStore) : WallStore := { st with opened := [], staging := true }

/-- The open generation becomes the closed one and an empty one begins: steps 2 and 3 of the close (R22). -/
def WallStore.close (st : WallStore) (adopted : Epoch) (offset : Int) : WallStore :=
  { st with opened := [], closed := some ⟨st.opened, adopted, offset⟩ }

/-- The entries of the closed generation are written and it becomes EMPTY (R25). -/
def WallStore.applyGeneration (st : WallStore) (g : ClosedGeneration) : WallStore :=
  { st.writeAll g.items with closed := none }

/-- The records of an apply: EPOCH, and TORN APPLY after it for a torn one (R26, R27). -/
def applyRecords (g : ClosedGeneration) (torn : Bool) : List Record :=
  .epoch g.epoch g.items.length torn g.offset :: if torn then [.event (.tornApply g.epoch)] else []

/-- The own audit record is built at the apply it waited for, or a heartbeat becomes pending in its place (R95). -/
def Membership.buildRecord (m : Membership) (digest : Digest) : Membership :=
  match m.stage, m.window with
  | .awaitingApply .digest, some w => { m with record := some ⟨w.epoch, digest⟩, stage := .pending .digest }
  | .awaitingApply .heartbeat, some _ => { m with stage := .pending .heartbeat }
  | _, _ => m

/-- The apply of the closed generation, if one is PENDING (R25), with the audit record that waited for it (R95). -/
def State.applyClosed (s : State) (torn : Bool) : State :=
  match s.store.closed with
  | none => s
  | some g =>
    { s with
      store := s.store.applyGeneration g
      port := s.port.enqueueAll (applyRecords g torn)
      members := s.members.buildRecord (s.store.applyGeneration g).digest }

/-! ### Line starts (R34, R35, R158, R159) -/

/-- SOURCE SHORT, once a frame (R159). -/
def PixelPath.short (line : Nat) (p : PixelPath) : PixelPath × List Record :=
  if p.shortFlag then (p, []) else ({ p with shortFlag := true }, [.event (.sourceShort line)])

/-- SOURCE LONG, once a frame (R159). -/
def PixelPath.long (line : Nat) (p : PixelPath) : PixelPath × List Record :=
  if p.longFlag then (p, []) else ({ p with longFlag := true }, [.event (.sourceLong line)])

/-- Both flags are cleared at every start of line 0 (R159). -/
def PixelPath.newFrame (p : PixelPath) : PixelPath := { p with shortFlag := false, longFlag := false }

/-- The buffers change roles and the new fill buffer is UNFILLED (R158). -/
def PixelPath.swap (p : PixelPath) : PixelPath := { p with fill := [], shown := p.fill }

/-- The fill buffer's words are thrown away (R158). -/
def PixelPath.discard (p : PixelPath) : PixelPath := { p with fill := [] }

/-- The pixel path at the start of line `line`, the line that ended being `ended` (R158). -/
def PixelPath.lineStart (c : Settings) (line ended : Nat) (p : PixelPath) : PixelPath × List Record :=
  let p := if line = 0 then p.newFrame else p
  if line < c.activeLines then
    if p.fill.count < c.width then p.swap.short line else (p.swap, [])
  else if p.fill.count = 0 then (p, [])
  else p.discard.long ended

/-- An event of the pixel path with the records it queues. -/
def State.runPixel (s : State) (f : PixelPath → PixelPath × List Record) : State :=
  { s with pixel := (f s.pixel).1, port := s.port.enqueueAll (f s.pixel).2 }

/-- The cue of a line (R35). -/
def cueOf (c : Settings) (line : Nat) : Cue := ⟨line, line < c.activeLines⟩

/-- Line `line` begins: the counter takes its number, its cue goes out, and the pixel path swaps or discards
(R34, R35, R158). Its records are `State.lineRecords`. -/
def State.beginLine (s : State) (c : Settings) (line : Nat) : State :=
  { s with
    timer := { s.timer with line := line }
    port := { s.port with cue := some (cueOf c line) }
    pixel := (s.pixel.lineStart c line s.timer.line).1 }

/-- The records the pixel path queues when line `line` begins (R158, R159). -/
def State.lineRecords (s : State) (c : Settings) (line : Nat) : List Record :=
  (s.pixel.lineStart c line s.timer.line).2

/-! ### The outcomes of a chosen message (R59, R78, R79, R83, R84) -/

/-- ABORTED: the content goes back to its owner; the consecutive-abort count is the caller's (R64, R79, R83, R84). -/
def State.outcomeAborted (s : State) : State :=
  match s.bus.chosen with
  | some .update => { s.runUnit CommandUnit.batchAborted with bus := { s.bus with chosen := none } }
  | _ => { s with bus := { s.bus with chosen := none } }

/-- What the owners do at a CLEAN outcome, after the message was taken as received (R78, R83, R84). -/
def State.outcomeClean (s : State) (kind : MessageKind) : State :=
  match kind with
  | .update => s.runUnit (CommandUnit.batchClean s.timer.epoch)
  | .audit =>
    match s.members.stage with
    | .pending k => { s with members := { s.members with stage := .sent k } }
    | _ => s
  | .resyncRequest => { s with resync := { s.resync with requestPending := false, blockSeen := false } }
  | .resyncDone => { s with resync := { s.resync with donePending := false } }
  | .block => s

/-! ### Changes of station state -/

/-- The resync unit on entering JOINING or DIVERGED (R107). -/
def ResyncUnit.enterRepair (r : ResyncUnit) : ResyncUnit :=
  { r with received := noBlocks, wait := 0, blockSeen := false, epochBlock := false
           requestPending := true, donePending := false }

/-- The resync unit on completion and on self-promotion (R116, R119). -/
def ResyncUnit.leaveRepair (r : ResyncUnit) : ResyncUnit :=
  { r with received := noBlocks, wait := 0, blockSeen := false, epochBlock := false
           requestPending := false, donePending := true }

/-- The resync unit on becoming MUTED (R120). -/
def ResyncUnit.mute (r : ResyncUnit) : ResyncUnit :=
  { r with received := noBlocks, wait := 0, blockSeen := false, epochBlock := false
           requestPending := false, donePending := false }

/-- LISTENING becomes JOINING at its first mark: the station's and the resync unit's part (R87, R107, R128). -/
def State.enterJoining (s : State) : State :=
  { s with
    station := ⟨.joining, 0⟩
    members := s.members.updateOwn s.rank? (Peer.ownActive · .joining)
    resync := s.resync.enterRepair }

/-- The own audit stage of a station that becomes DIVERGED: one that waits for an apply comes due as a heartbeat
(R95, R131). -/
def AuditStage.diverged : AuditStage → AuditStage
  | .awaitingApply _ => .awaitingApply .heartbeat
  | .none => .none
  | .pending kind => .pending kind
  | .sent kind => .sent kind

/-- IN STEP becomes DIVERGED (R107, R131). -/
def State.diverge (s : State) (cause : DivergeCause) : State :=
  { s with
    station := { s.station with state := .diverged }
    members := { s.members.updateOwn s.rank? (Peer.ownActive · .diverged) with stage := s.members.stage.diverged }
    resync := s.resync.enterRepair
    port := s.port.enqueue (.event (.diverged cause)) }

/-- JOINING or DIVERGED becomes IN STEP, by completion (JOINED) or by self-promotion (SELF PROMOTED) (R116, R119). -/
def State.repaired (s : State) (event : Event) : State :=
  { s with
    station := { s.station with state := .inStep }
    members := s.members.updateOwn s.rank? Peer.ownInStep
    resync := s.resync.leaveRepair
    port := s.port.enqueue (.event event) }

/-- What is driven by a station that stops driving at once: the abort pattern over a message in transmission, else
nothing (R57, R65, R71). -/
def Drive.silenced : Drive → Drive
  | .message _ => .abortPattern
  | .abortPattern => .abortPattern
  | .recessive | .startPulse | .reservationBit => .recessive

/-- The controller of a station that leaves the active states: it stops driving and its chosen message is DROPPED
(R57, R59, R65). -/
def BusController.silence (b : BusController) : BusController :=
  { b with chosen := none, driving := false, drive := b.drive.silenced }

/-- The station becomes MUTED: MUTED is queued first, then the SETTLED records of the drop (R132). A station already
MUTED stays so and queues nothing. -/
def State.mute (s : State) (cause : MuteCause) : State :=
  if s.station.state = .muted then s
  else
    { s with
      station := { s.station with state := .muted }
      port := (s.port.enqueue (.event (.muted cause))).enqueueAll s.command.dropAll.2
      command := s.command.dropAll.1
      bus := s.bus.silence
      timer := { s.timer with markPending := false }
      members :=
        { s.members.updateOwn s.rank? Peer.found with stage := .none, record := none }
      resync := s.resync.mute }

/-- A receive error, by the station state (R67). -/
def State.receiveError (s : State) : State :=
  match s.station.state with
  | .inStep => s.diverge .receiveError
  | .joining | .diverged => { s with resync := { s.resync with received := noBlocks } }
  | .muted => { s with bus := { s.bus with suspect := true } }
  | .listening | .configuring | .configFault => s

/-! ### Rounds (R51, R60) -/

/-- The controller when it leaves a round for `round`: no schedule, no slot, nothing driven (R49, R51). -/
def BusController.leaveRound (b : BusController) (round : RoundState) : BusController :=
  { b with round := round, schedule := [], slot := 0, field := .origin, driving := false, slotDamaged := false
           drive := .recessive, partDriven := recessiveField 16, recessive := .below }

/-- The round end: the belief becomes the last scheduled rank plus 1 (R60). -/
def BusController.endRound (b : BusController) : BusController :=
  match b.schedule.getLast? with
  | some r => { b.leaveRound .gap with belief := r + 1 }
  | none => b.leaveRound .gap

end Sys2Proof.Machine
end

