-- ==== Sys2Proof/Machine/Bus.lean ====
section
/-! DEFINITION. Family: the bus outside the data phase. SEEK_GAP, IDLE_GAP, DOMINANT_LEVEL, START_PULSE,
DRIVE_START_PULSE and the fields ORIGIN_FIELD, MARK_SLOT, SEND_SELECTION, RESERVATION_FIELD, FIELD_FAULT
(spec/04_the_wall_bus.md, 4.2 and 4.3; R68; R74, R75, R77). -/

namespace Sys2Proof.Machine

/-- SEEK_GAP: a SEEKING station takes the bus as free (R51). -/
def execSeekGap (s : State) : Host.Outcome State Fault Refusal :=
  .next <|
    if s.bus.round = .seeking then { s with bus := { s.bus with round := .idle, recessive := .seekGap } } else s

/-- The idle gap has passed: GAP becomes IDLE; an IDLE station whose count was restarted has counted it again (R51). -/
def BusController.idleGap (b : BusController) : BusController :=
  if b.round = .gap then { b with round := .idle, recessive := .idleGap }
  else if b.round = .idle && b.recessive = .below then { b with recessive := .idleGap }
  else b

/-- IDLE_GAP (R51). -/
def execIdleGap (s : State) : Host.Outcome State Fault Refusal :=
  .next { s with bus := s.bus.idleGap }

/-- A dominant level other than a start pulse restarts the count of a station in SEEKING, GAP or IDLE (R51). -/
def BusController.restartCount (b : BusController) : BusController :=
  match b.round with
  | .seeking | .gap | .idle => { b with recessive := .below }
  | .off | .fields | .data => b

/-- DOMINANT_LEVEL (R51). -/
def execDominantLevel (s : State) : Host.Outcome State Fault Refusal :=
  .next { s with bus := s.bus.restartCount }

/-- DRIVE_START_PULSE: an active station in IDLE with a start reason drives the start pulse; the reading of that pulse
is START_PULSE (R52). -/
def execDriveStartPulse (s : State) : Host.Outcome State Fault Refusal :=
  .next <|
    if s.active && s.bus.round = .idle && s.startReason then { s with bus := { s.bus with drive := .startPulse } } else s

/-- A round begins: FIELDS, at the origin field. A station that is active now drives in this round (R51, R57). -/
def BusController.followRound (b : BusController) (active : Bool) : BusController :=
  { b.leaveRound .fields with driving := active }

/-- A receive error and the outcome ABORTED of the chosen message, in one event: DIVERGED and the SETTLED records of the
batch are queued in either order (R67, R79, R150). -/
def State.receiveErrorAndAbort (s : State) : State :=
  match s.bus.chosen with
  | some .update =>
    State.eitherOrder { s with command := s.command.batchAborted.1, bus := { s.bus with chosen := none } }
      s.command.batchAborted.2 (s.station.state = .inStep) State.receiveError
  | _ => s.receiveError.outcomeAborted

/-- A field fault: a receive error, the chosen message ABORTED with the count unchanged, and the station drops out of the
round to SEEKING, keeping its belief (R68). -/
def State.fieldFault (s : State) : State :=
  let s₁ := s.receiveErrorAndAbort
  { s₁ with bus := s₁.bus.leaveRound .seeking }

/-- START_PULSE: a round boundary in SEEKING, GAP and IDLE; a code violation in FIELDS; damage to the message of the slot
in DATA (R51, R66, R68). -/
def execStartPulse (s : State) : Host.Outcome State Fault Refusal :=
  .next <|
    match s.bus.round with
    | .off => s
    | .seeking | .gap | .idle => { s with bus := s.bus.followRound s.active }
    | .fields => s.fieldFault
    | .data => { s with bus := { s.bus with slotDamaged := true } }

/-- The station is in the field sequence and the given field is the next one. -/
def BusController.atField (b : BusController) (field : FieldPosition) : Bool := b.round = .fields && b.field = field

/-- ORIGIN_FIELD: the belief becomes the value the bus carried, the wired AND of what all drove (R53). -/
def execOriginField (others : BitVec 4) (s : State) : Host.Outcome State Fault Refusal :=
  .next <|
    if s.bus.atField .origin then
      { s with
        bus :=
          { s.bus with belief := others &&& s.originDrive, field := .markSlot, partDriven := recessiveField 16 } }
    else s

/-- MARK_SLOT: a dominant slot makes the round a mark round, with the epoch field next; a recessive one leads to the
reservation field directly (R54, R55). -/
def execMarkSlot (others : Level) (s : State) : Host.Outcome State Fault Refusal :=
  .next <|
    if s.bus.atField .markSlot then
      { s with
        bus := { s.bus with field := if wiredAnd others s.markDrive = .dominant then .epoch else .reservation } }
    else s

/-- What a choice does to the command unit: UPDATE takes the in-flight batch; BLOCK sets the last-was-BLOCK flag and
UPDATE clears it (R75, R77). -/
def CommandUnit.choose (u : CommandUnit) (kind : MessageKind) : CommandUnit :=
  match kind with
  | .update => { u.takeBatch with lastWasBlock := false }
  | .block => { u with lastWasBlock := true }
  | .audit | .resyncRequest | .resyncDone => u

/-- A message is chosen: it is held for the round and the own rank's reservation bit is driven (R56). -/
def State.choose (s : State) (kind : MessageKind) : State :=
  { s with
    command := s.command.choose kind
    bus := { s.bus with chosen := some kind, field := .selected, drive := .reservationBit } }

/-- The send selection of an active station that drives in the round (R56, R74). -/
def State.select (s : State) : State :=
  match s.candidate with
  | some kind => s.choose kind
  | none => { s with bus := { s.bus with field := .selected } }

/-- SEND_SELECTION: the first bit of the reservation field (R56, R57, R74). -/
def execSendSelection (s : State) : Host.Outcome State Fault Refusal :=
  .next <| if s.bus.atField .reservation && s.drives then s.select else s

/-- The schedule is built from the field's value on the bus; an empty one ends a mark round or makes an empty start
(R51, R56, R60). -/
def BusController.reserve (b : BusController) (bus : BitVec 16) : BusController :=
  match scheduleOf b.belief bus with
  | [] => b.leaveRound .gap
  | r :: rest =>
    { b with round := .data, schedule := r :: rest, slot := 0, field := .origin, slotDamaged := false
             drive := .recessive, partDriven := recessiveField 16 }

/-- RESERVATION_FIELD: the field is sampled, the wired AND of what all drove (R56). -/
def execReservationField (others : BitVec 16) (s : State) : Host.Outcome State Fault Refusal :=
  .next <|
    if s.bus.atField .reservation || s.bus.atField .selected then
      { s with bus := s.bus.reserve (others &&& s.reservationDrive) }
    else s

/-- FIELD_FAULT: a code violation read in the field sequence (R68). -/
def execFieldFault (s : State) : Host.Outcome State Fault Refusal :=
  .next <| if s.bus.round = .fields then s.fieldFault else s

end Sys2Proof.Machine
end

