-- ==== Sys2Proof/Machine/Commands.lean ====
section
/-! DEFINITION. Family: the commands of the frame source, each taken at the arrival of its last word (R139): the tests of
R140 in their order, and the effects of R142 to R149, R81 and R134. -/

namespace Sys2Proof.Machine

/-- A command word that completes a command of the given kind (none: of no kind) is taken: the assembly is empty again
and the command acts. A word that completes no such command is not an arrival of this row (R139, log 10). -/
def State.takeCommand (s : State) (payload : Word) (kind : Option CommandKind) (act : State → Command → State) : State :=
  match assemble s.port.assembly payload with
  | .complete c =>
    if commandKind c.kind = kind then act { s with port := { s.port with assembly := none } } c else s
  | .incomplete _ => s

/-- A refused command queues one REFUSED record and has no other effect (R140). -/
def State.refuse (s : State) (tag : Tag) (reason : RefusalReason) : State := s.report (.refused tag reason)

/-- The free capacity of the proposal queue (R73). -/
def CommandUnit.freeCapacity (u : CommandUnit) : Nat := Config.queueCapacity - u.queue.length

/-- The items of an accepted command are queued with an account, and ACCEPTED is queued (R73). -/
def State.accept (s : State) (tag : Tag) (items : List Item) : State :=
  { s with command := s.command.intake tag items, port := s.port.enqueue (.accepted tag) }

/-- The tests of an item-making command in their order: MALFORMED, NOT ACTIVE, RANGE, QUEUE FULL (R140). -/
def State.takeRequest (s : State) (tag : Tag) (request : Request) : State :=
  match request with
  | .malformed => s.refuse tag .malformed
  | .outOfRange => if s.active then s.refuse tag .range else s.refuse tag .notActive
  | .items items =>
    if !s.active then s.refuse tag .notActive
    else if items.length ≤ s.command.freeCapacity then s.accept tag items
    else s.refuse tag .queueFull

/-- UNKNOWN_COMMAND: refused MALFORMED (R140). -/
def execUnknownCommand (payload : Word) (s : State) : Host.Outcome State Fault Refusal :=
  .next (s.takeCommand payload none fun s c => s.refuse c.tag .malformed)

/-- SET COLORS (R142). -/
def execSetColors (payload : Word) (s : State) : Host.Outcome State Fault Refusal :=
  .next (s.takeCommand payload (some .setColors) fun s c => s.takeRequest c.tag (setColorsRequest c.args))

/-- SET POINTER ROW (R143). -/
def execSetPointerRow (payload : Word) (s : State) : Host.Outcome State Fault Refusal :=
  .next (s.takeCommand payload (some .setPointerRow) fun s c => s.takeRequest c.tag (setPointerRowRequest c.args))

/-- MOVE POINTER (R144). -/
def execMovePointer (payload : Word) (s : State) : Host.Outcome State Fault Refusal :=
  .next (s.takeCommand payload (some .movePointer) fun s c => s.takeRequest c.tag (movePointerRequest c.args))

/-- POINTER VISIBILITY (R145). -/
def execPointerVisibility (payload : Word) (s : State) : Host.Outcome State Fault Refusal :=
  .next (s.takeCommand payload (some .pointerVisibility) fun s c => s.takeRequest c.tag (pointerVisibilityRequest c.args))

/-- A WITHDRAW that is taken: ACCEPTED, then the SETTLED records of the accounts it completes (R81). -/
def State.withdraw (s : State) (tag : Tag) : State :=
  { s with
    command := s.command.withdrawn.1
    port := (s.port.enqueue (.accepted tag)).enqueueAll s.command.withdrawn.2 }

/-- WITHDRAW: taken in every station state (R81, R137, R146). -/
def execWithdraw (payload : Word) (s : State) : Host.Outcome State Fault Refusal :=
  .next (s.takeCommand payload (some .withdraw) fun s c =>
    if c.args = [] then s.withdraw c.tag else s.refuse c.tag .malformed)

/-- A READ TARGET by its arguments: a VALUE record, or refused MALFORMED or RANGE (R147). -/
def State.readTarget (s : State) (tag : Tag) (args : List Word) : State :=
  match args with
  | [w] =>
    match Target.ofNumber? (targetNumber w) with
    | some t => s.report (.value tag (s.store.wall.item t))
    | none => s.refuse tag .range
  | _ => s.refuse tag .malformed

/-- READ TARGET: taken in every station state (R15, R137, R147). -/
def execReadTarget (payload : Word) (s : State) : Host.Outcome State Fault Refusal :=
  .next (s.takeCommand payload (some .readTarget) fun s c => s.readTarget c.tag c.args)

/-- The summary of a membership entry (R86). -/
def Peer.summary (p : Peer) : Summary := ⟨p.presence, p.reported, p.verdict⟩

/-- The number of members of the received-block set (R104). -/
def ResyncUnit.receivedCount (r : ResyncUnit) : Nat := r.received.toList.count true

/-- The fields of a STATUS record, all taken in one event (R148). -/
def State.statusFields (s : State) : StatusFields :=
  { state := s.station.state
    rank := s.rank?
    epoch := s.timer.epoch
    lastOffset := s.timer.lastOffset
    occupancy := s.command.queue.length
    inFlight := s.command.inFlight
    suspect := s.bus.suspect
    requester := s.ownRequester
    receivedBlocks := s.resync.receivedCount
    cursor := s.resync.cursor.val
    membership := allRanks.map (fun r => (s.peer r).summary) }

/-- STATUS: taken in every station state (R137, R148). -/
def execStatus (payload : Word) (s : State) : Host.Outcome State Fault Refusal :=
  .next (s.takeCommand payload (some .status) fun s c =>
    if c.args = [] then s.report (.status c.tag s.statusFields) else s.refuse c.tag .malformed)

/-- The effects of a REJOIN that is taken, in one event: ACCEPTED and the drop's SETTLED records; the sends stopped, with
the part of a field that was driven already (R57, R65); the default load, the table, the window and the resync unit at
their initial values, the epoch unknown, LISTENING. The configuration, the round state, belief and schedule, the video
timing, the pixel path and the report queue are kept (R134). -/
def State.rejoin (s : State) (tag : Tag) : State :=
  { s with
    port := (s.port.enqueue (.accepted tag)).enqueueAll s.command.dropAll.2
    bus := { s.bus.silence with aborts := 0, suspect := false, partDriven := s.drivenSoFar }
    command := s.command.dropAll.1
    store := s.store.defaultLoad
    members := Membership.reset
    resync := ResyncUnit.reset
    timer := { s.timer with epoch := none, markPending := false }
    station := ⟨.listening, 0⟩
    choices := s.choices + if s.inFields then 1 else 0 }

/-- REJOIN is refused in CONFIGURING and CONFIG FAULT and taken in the other states (R134, R137). -/
def StationState.permitsRejoin : StationState → Bool
  | .configuring | .configFault => false
  | .listening | .joining | .inStep | .diverged | .muted => true

/-- REJOIN (R134, R137, R149). It is refused in CONFIGURING also where a reset came with it (DESIGN CHOICE, log 31). -/
def execRejoin (payload : Word) (s : State) : Host.Outcome State Fault Refusal :=
  .next (s.takeCommand payload (some .rejoin) fun s c =>
    if c.args ≠ [] then s.refuse c.tag .malformed
    else if s.station.state.permitsRejoin then s.rejoin c.tag
    else s.refuse c.tag .notActive)

end Sys2Proof.Machine
end

