-- ==== Sys2Proof/Machine/Lanes.lean ====
section
/-! DEFINITION. Family: the lanes of the source port. PIXEL_WORD, COMMAND_WORD and RECORD_SENT
(spec/09_the_source_port_commands_and_reports.md, 9.1 and 9.6; spec/10_the_pixel_path.md, R157). -/

namespace Sys2Proof.Machine

/-- A pixel word at the pixel path: written at the fill count, or discarded with SOURCE LONG when the buffer is full
(R157). -/
def PixelPath.take (c : Settings) (line : Nat) (payload : Word) (p : PixelPath) : PixelPath × List Record :=
  if p.fill.count < c.width then ({ p with fill := p.fill ++ [pixelOf c.format payload] }, []) else p.long line

/-- A pixel word that arrives while a command is incomplete ends that command, which is refused MALFORMED (R139). -/
def State.endAssembly (s : State) : State :=
  match s.port.assembly with
  | some a => { s with port := { s.port with assembly := none }.enqueue (.refused (headTag a.head) .malformed) }
  | none => s

/-- The port hands a pixel word to the pixel path while the timer is RUNNING and discards it otherwise (R138). -/
def State.handPixel (s : State) (payload : Word) : State :=
  match s.loader.config with
  | some c => if s.timer.running then s.runPixel (PixelPath.take c s.timer.line payload) else s
  | none => s

/-- PIXEL_WORD (R138, R139, R157). -/
def execPixelWord (payload : Word) (s : State) : Host.Outcome State Fault Refusal :=
  .next (s.endAssembly.handPixel payload)

/-- COMMAND_WORD: a head word, or one more argument word, of a command that is still incomplete (R139). A word that
completes a command is an arrival of the row of that command. -/
def execCommandWord (payload : Word) (s : State) : Host.Outcome State Fault Refusal :=
  .next <|
    match assemble s.port.assembly payload with
    | .incomplete a => { s with port := { s.port with assembly := some a } }
    | .complete _ => s

/-- RECORD_SENT: the head record's last word has gone and the record leaves the queue (R150, R152). -/
def execRecordSent (s : State) : Host.Outcome State Fault Refusal :=
  .next <|
    match s.port.reports with
    | r :: rest => { s with port := { s.port with reports := rest, sentWords := r.words } }
    | [] => s

end Sys2Proof.Machine
end

