-- ==== Sys2Proof/Machine/Lifecycle.lean ====
section
/-! DEFINITION. Family: lifecycle. RESET and CONFIGURATION_COMPLETE (spec/08_station_lifecycle.md, 8.2). -/

namespace Sys2Proof.Machine

/-- RESET: every block takes its reset value in one event, whatever the station is doing (R124). The commands still to
come are the outside's and stay in the queue, and the free choices still to come stay free (logs 8 and 12). -/
def execReset (s : State) : Host.Outcome State Fault Refusal :=
  .next { State.reset with choices := s.choices, pending := s.pending }

/-- A valid record takes effect: the station is LISTENING, the timer runs from line 0 with its frame cue, the controller
is SEEKING, and line 0 swaps without a test for SOURCE SHORT (R33, R51, R125, R158, R159). -/
def State.configured (s : State) (c : Settings) : State :=
  { s with
    loader := ⟨some c⟩
    station := ⟨.listening, 0⟩
    timer := { s.timer with running := true, line := 0 }
    port := { s.port with cue := some (cueOf c 0) }
    pixel := s.pixel.newFrame.swap
    bus := { s.bus with round := .seeking } }

/-- A record that cannot be used: CONFIG FAULT with its reason (R126). -/
def State.configFaulted (s : State) (reason : ConfigFaultReason) : State :=
  { s with
    station := { s.station with state := .configFault }
    port := s.port.enqueue (.event (.configFault reason)) }

/-- CONFIGURATION_COMPLETE: the read of the record ends and the record is validated (R125, R126, R166). The record is
read in CONFIGURING only (R125). -/
def execConfigurationComplete (read : Option (List Byte)) (s : State) : Host.Outcome State Fault Refusal :=
  .next <|
    if s.station.state = .configuring then
      match validate read with
      | .valid c => s.configured c
      | .fault reason => s.configFaulted reason
    else s

end Sys2Proof.Machine
end

