-- ==== Sys2Proof/Machine/Mark.lean ====
section
/-! DEFINITION. Family: the mark. MARK, the sampling of a mark round's epoch field: the epoch timer's part (R38 to R44),
the wall state store's (R18, R22, R23, R27), the station controller's (R128), the membership unit's (R90 to R102), the
resync unit's (R117 to R119), and the orders the spec leaves free among them. -/

namespace Sys2Proof.Machine

/-! ### The epoch timer -/

/-- The offset m at a mark sampled at line n (R41). -/
def offsetAt (c : Settings) (phase : FramePhase) (n : Nat) : Int :=
  match phase with
  | .ended => (n : Int)
  | .waiting | .covered => -((c.totalLines : Int) - (n : Int))

/-- EPOCH SLIP of a station that drove another value than the bus carried (R40). -/
def slipRecords (old driven : Option Epoch) (adopted : Epoch) : List Record :=
  match old, driven with
  | some old, some d => if d = adopted then [] else [.event (.epochSlip old adopted)]
  | _, _ => []

/-- The epoch is adopted, mark pending cleared, the offset stored (R38, R41). -/
def EpochTimer.adopt (t : EpochTimer) (adopted : Epoch) (offset : Int) : EpochTimer :=
  { t with epoch := some adopted, markPending := false, lastOffset := some offset }

/-- The correction of a station that is `behind` lines behind: an advance, a corrective wrap or a timing jump
(R42 to R44). -/
def State.catchUp (s : State) (c : Settings) (behind : Nat) : State :=
  if behind ≤ c.lockWindow then
    let advance := min behind c.slewLimit
    if s.timer.line + advance < c.totalLines then
      { s with timer := { s.timer with line := s.timer.line + advance, phase := .covered } }
    else { s with timer := { s.timer with phase := .waiting } }.beginLine c 0
  else
    { s with
      timer := { s.timer with phase := .waiting }
      port := s.port.enqueue (.event (.timingJump (-(behind : Int)))) }.beginLine c 0

/-- The correction that follows the measurement (R41). -/
def State.correct (s : State) (c : Settings) : State :=
  match s.timer.phase with
  | .ended => { s with timer := { s.timer with phase := .waiting } }
  | .waiting | .covered => s.catchUp c (c.totalLines - s.timer.line)

/-- The epoch timer at a mark: slip, adoption, measurement, correction (R38, R40, R41). -/
def State.timerMark (s : State) (c : Settings) (adopted : Epoch) : State :=
  State.correct
    { s with
      port := s.port.enqueueAll (slipRecords s.timer.epoch s.epochDrive adopted)
      timer := s.timer.adopt adopted (offsetAt c s.timer.phase s.timer.line) } c

/-! ### The wall state store -/

/-- The close of the open generation, a torn apply first if one is PENDING, then an immediate apply if the mark was
sampled in the blank (R22, R23, R27). -/
def State.closeGeneration (s : State) (c : Settings) (line : Nat) (adopted : Epoch) (offset : Int) : State :=
  let s₁ := s.applyClosed true
  let s₂ := { s₁ with store := s₁.store.close adopted offset }
  if c.activeLines ≤ line then s₂.applyClosed false else s₂

/-- The wall state store at a mark: the close, or the opening of the staging at the first mark (R18, R22). -/
def State.storeMark (s : State) (c : Settings) (line : Nat) (adopted : Epoch) (offset : Int) : State :=
  if s.store.staging then s.closeGeneration c line adopted offset
  else { s with store := s.store.openStaging }

/-! ### The station controller -/

/-- The first mark round a LISTENING station samples makes it JOINING (R128), also after a REJOIN that met the mark (DESIGN
CHOICE, log 32). -/
def State.stationMark (s : State) : State :=
  if s.station.state = .listening then s.enterJoining else s

/-! ### The membership unit -/

/-- A PRESENT entry other than the own one (R90, R91). -/
def otherPresent (own : Option Rank) (r : Rank) (p : Peer) : Bool := own ≠ some r && p.presence = .present

/-- At a renumbering every PRESENT peer's last-heard epoch becomes the adopted one (R90). -/
def Membership.renumber (m : Membership) (own : Option Rank) (old adopted : Epoch) : Membership :=
  if adopted = old + 1 then m
  else
    { m with
      table := ofRanks fun r =>
        let p := atRank m.table r
        if otherPresent own r p then { p with lastHeard := some adopted } else p }

/-- A peer that has been silent for at least S epochs (R91). -/
def silent (c : Settings) (own : Option Rank) (adopted : Epoch) (r : Rank) (p : Peer) : Bool :=
  otherPresent own r p && p.lastHeard.elim false (fun heard => c.silenceLimit ≤ (adopted - heard).toNat)

/-- An entry that becomes ABSENT by silence (R91). -/
def Peer.lost (p : Peer) : Peer := { p with presence := .absent, verdict := .none, requester := false }

/-- The silence check on the table (R91). -/
def Membership.silenceCheck (m : Membership) (c : Settings) (own : Option Rank) (adopted : Epoch) : Membership :=
  { m with
    table := ofRanks fun r =>
      let p := atRank m.table r
      if silent c own adopted r p then p.lost else p }

/-- The PEER LOST records of the silence check, in ascending rank (R91). -/
def Membership.lostRecords (m : Membership) (c : Settings) (own : Option Rank) (adopted : Epoch) : List Record :=
  (allRanks.filter fun r => silent c own adopted r (atRank m.table r)).map fun r => .event (.peerLost r)

/-- The entries of the tally, in ascending rank (R93). -/
def tallyEntries (tally : Vector (Option Digest) 16) : List (Rank × Digest) :=
  allRanks.filterMap fun r => (atRank tally r).map fun d => (r, d)

/-- How many entries of the tally hold a digest (R99). -/
def holders (entries : List (Rank × Digest)) (d : Digest) : Nat := (entries.filter fun e => e.2 = d).length

/-- The reference digest: held by the most entries, on a tie the one whose lowest-ranked holder is lowest; none for an
empty tally (R99). Entries stand in ascending rank, so the first best entry is that holder. -/
def referenceDigest (entries : List (Rank × Digest)) : Option Digest :=
  (entries.find? fun e => entries.all fun e' => holders entries e'.2 ≤ holders entries e.2).map Prod.snd

/-- An entry's verdict after the decision (R100). -/
def Peer.judge (p : Peer) (reference : Digest) (tallied : Option Digest) : Peer :=
  match tallied with
  | some d => { p with verdict := if d = reference then .matching else .mismatch }
  | none => if p.presence = .present && p.reported = some .inStep then { p with verdict := .none } else p

/-- The decision on the table, if the tally is not empty (R99, R100). -/
def Membership.decide (m : Membership) : Membership :=
  match referenceDigest (tallyEntries m.tally) with
  | none => m
  | some reference =>
    { m with table := ofRanks fun r => (atRank m.table r).judge reference (atRank m.tally r) }

/-- The own verdict just given is MISMATCH (R101). -/
def Membership.ownMismatch (m : Membership) (own : Option Rank) : Bool :=
  (referenceDigest (tallyEntries m.tally)).isSome &&
    own.elim false (fun r => (atRank m.decide.table r).verdict = .mismatch)

/-- The AUDIT LATE record of a window that closes with its own AUDIT unsent (R98). -/
def Membership.lateRecords (m : Membership) (w : AuditWindow) : List Record :=
  match m.stage with
  | .pending _ | .awaitingApply _ => [.event (.auditLate w.epoch)]
  | .none | .sent _ => []

/-- The window CLOSED, the tally empty, the stage NONE and no own record (R98). -/
def Membership.clearAudit (m : Membership) : Membership :=
  { m with window := none, stage := .none, record := none, tally := emptyTally }

/-- The close of the audit window: AUDIT LATE, the decision, and the divergence of a mismatched IN STEP station
(R98 to R101). -/
def State.closeWindow (s : State) (w : AuditWindow) : State :=
  let s₁ :=
    { s with
      members := s.members.decide.clearAudit
      port := s.port.enqueueAll (s.members.lateRecords w) }
  if s.members.ownMismatch s.rank? && s.station.state = .inStep then s₁.diverge .auditMismatch else s₁

/-- The own audit stage and record at the opening of a window (R94, R95). -/
def Membership.openWindow (m : Membership) (state : StationState) (deferred : Bool) (digest : Digest) (e : Epoch) :
    Membership :=
  let m := { m with window := some ⟨e, 0⟩, tally := emptyTally, record := none }
  match state with
  | .inStep =>
    if deferred then { m with stage := .awaitingApply .digest }
    else { m with stage := .pending .digest, record := some ⟨e, digest⟩ }
  | .joining | .diverged => { m with stage := .pending .heartbeat }
  | .muted | .listening | .configuring | .configFault => { m with stage := .none }

/-- The opening of the audit window for the adopted epoch, after the store's close at the same mark (R94, R102). -/
def State.openWindow (s : State) (e : Epoch) : State :=
  { s with members := s.members.openWindow s.station.state s.store.closed.isSome s.store.digest e }

/-- The window's part of a mark: the close of a window whose second mark this is, or that an audit epoch finds open, then
the opening; else one more mark counted (R94, R98, R102). -/
def State.windowMark (s : State) (c : Settings) (adopted : Epoch) : State :=
  match s.members.window with
  | some w =>
    if auditEpoch c adopted then (s.closeWindow w).openWindow adopted
    else if w.marks = 0 then { s with members := { s.members with window := some { w with marks := 1 } } }
    else s.closeWindow w
  | none => if auditEpoch c adopted then s.openWindow adopted else s

/-- The silence check with its PEER LOST records (R91). -/
def State.checkSilence (s : State) (c : Settings) (adopted : Epoch) : State :=
  { s with
    members := s.members.silenceCheck c s.rank? adopted
    port := s.port.enqueueAll (s.members.lostRecords c s.rank? adopted) }

/-- The membership unit at a mark, in the order of R102. `old` is the epoch number before the mark; where it was unknown
the unit only opens a window. -/
def State.memberMark (s : State) (c : Settings) (old : Option Epoch) (adopted : Epoch) : State :=
  match old with
  | none => if auditEpoch c adopted then s.openWindow adopted else s
  | some old =>
    (State.checkSilence { s with members := s.members.renumber s.rank? old adopted } c adopted).windowMark c adopted

/-! ### The resync unit -/

/-- The provider-wait counter after a mark: 0 if a block came in the epoch it ends or the table held an eligible rank,
else one more (R118). -/
def ResyncUnit.waitAfter (r : ResyncUnit) (eligibleBefore : Bool) : Nat :=
  if r.epochBlock || eligibleBefore then 0 else r.wait + 1

/-- The provider wait of a station that was repairing before the mark, with self-promotion when the counter reaches S
(R118, R119). The epoch-block flag is cleared for the epoch that begins (R104, R118). -/
def State.waitMark (s : State) (c : Settings) (repairingBefore eligibleBefore : Bool) : State :=
  let s₁ := { s with resync := { s.resync with epochBlock := false } }
  if repairingBefore && s.station.state.repairing then
    let wait := s.resync.waitAfter eligibleBefore
    if c.silenceLimit ≤ wait then s₁.repaired .selfPromoted
    else { s₁ with resync := { s₁.resync with wait := wait } }
  else s₁

/-- The repetition of an unanswered request at an audit epoch (R117). -/
def State.repeatRequest (s : State) (c : Settings) (adopted : Epoch) : State :=
  if s.station.state.repairing && auditEpoch c adopted && !s.resync.requestPending && !s.resync.blockSeen then
    { s with resync := { s.resync with requestPending := true } }
  else s

/-! ### The whole mark -/

/-- A mark at this line and phase ends the line in progress and begins line 0: a corrective wrap or a timing jump
(R43, R44). -/
def EpochTimer.restarts (t : EpochTimer) (c : Settings) : Bool :=
  match t.phase with
  | .ended => false
  | .waiting | .covered =>
    let behind := c.totalLines - t.line
    c.lockWindow < behind || c.totalLines ≤ t.line + min behind c.slewLimit

/-- The records the pixel path queues at a mark: those of the start of line 0, if the mark begins it (R158, R159). -/
def State.markLineRecords (s : State) (c : Settings) : List Record :=
  if s.timer.restarts c then s.lineRecords c 0 else []

/-- The mark brings the provider-wait counter of a repairing station to S (R118, R119). -/
def State.promotes (s : State) (c : Settings) : Bool :=
  s.station.state.repairing && c.silenceLimit ≤ s.resync.waitAfter s.anyEligible

/-- What the blocks do at a mark, in the order they are taken (R38). The timer hands the mark on, and the membership unit
comes after the store (R102). A self-promotion comes before or after either, by a free choice (R121, R150). DESIGN CHOICE
(log 8): it always comes after the timer, so SELF PROMOTED follows EPOCH SLIP and TIMING JUMP, where R150 allows either order.
The line number handed on is the one before the correction; the station state and the table that R118 asks for are those
before the mark. -/
def State.markActions (s : State) (c : Settings) (adopted : Epoch) : List (State → State) :=
  let offset := offsetAt c s.timer.phase s.timer.line
  let resync := fun t : State => t.waitMark c s.station.state.repairing s.anyEligible
  let blocks : List (State → State) :=
    [ fun t => t.timerMark c adopted,
      fun t => t.storeMark c s.timer.line adopted offset,
      fun t => t.stationMark.memberMark c s.timer.epoch adopted ]
  blocks.insertIdx (if s.promotes c then 1 + Config.choice s.choices % 3 else 3) resync

/-- Several actions, one after the other. -/
def State.run (s : State) (actions : List (State → State)) : State := actions.foldl (fun t act => act t) s

/-- The report queue after the actions of a mark, with the pixel path's records at any place among the others', by a free
choice that decides nothing else (R150). -/
def State.markPort (s : State) (c : Settings) (adopted : Epoch) : SourcePort :=
  let records := s.markLineRecords c
  let actions := s.markActions c adopted
  if records = [] then (s.run actions).port
  else (s.run (actions.insertIdx (Config.choice (s.choices + 1) % 5) fun t => t.reportAll records)).port

/-- The free choices a mark takes. -/
def State.markChoices (s : State) (c : Settings) : Nat := if s.promotes c || s.markLineRecords c ≠ [] then 2 else 0

/-- A mark sampled: every block acts for the state it owns, in one event (R38), and an unanswered request is repeated
(R117). -/
def State.takeMark (s : State) (c : Settings) (adopted : Epoch) : State :=
  { (s.run (s.markActions c adopted)).repeatRequest c adopted with
    port := s.markPort c adopted
    choices := s.choices + s.markChoices c }

/-- The controller goes on to the reservation field (R55). -/
def State.fieldAfterMark (s : State) : State :=
  { s with bus := { s.bus with field := .reservation, partDriven := recessiveField 16 } }

/-- MARK: the epoch field of a mark round is sampled by a station that followed the round to it (R38, R55). -/
def execMark (others : BitVec 16) (s : State) : Host.Outcome State Fault Refusal :=
  .next <|
    match s.loader.config with
    | some c =>
      if s.timer.running && s.bus.round = .fields && s.bus.field = .epoch then
        (s.takeMark c (s.busEpoch others)).fieldAfterMark
      else s
    | none => s

end Sys2Proof.Machine
end

