-- ==== Sys2Proof/Machine/Slots.lean ====
section
/-! DEFINITION. Family: the data phase. TRANSMIT, READBACK_MISMATCH, MESSAGE_ABORTED, SLOT_VACANT and MESSAGE_RECEIVED,
with what each owner does with a message received (spec/04_the_wall_bus.md, 4.4 to 4.8; R76, R88, R97, R105, R106, R109,
R113, R116). -/

namespace Sys2Proof.Machine

/-! ### Transmission -/

/-- The body of a chosen message, built at transmission from the state of the owning block (R76, R96, R111). -/
def State.buildBody (s : State) (kind : MessageKind) (epoch : Epoch) : Option Body :=
  match kind with
  | .update => some (.update ((s.command.queue.take s.command.inFlight).map QueuedItem.item))
  | .audit =>
    match s.members.stage, s.members.window with
    | .pending .digest, some w => s.members.record.map fun r => .audit w.epoch (some r.digest)
    | .pending .heartbeat, some w => some (.audit w.epoch none)
    | _, _ => none
  | .resyncRequest => some .resyncRequest
  | .resyncDone => some .resyncDone
  | .block => some (.block s.resync.cursor epoch (s.store.wall.block s.resync.cursor))

/-- The message this station would transmit now: its header filled and its body built at this moment (R59, R76). -/
def State.outgoing (s : State) : Option Message :=
  match s.rank?, s.station.state.reported, s.timer.epoch, s.bus.chosen with
  | some rank, some state, some epoch, some kind => (s.buildBody kind epoch).map fun b => ⟨rank, state, epoch, b⟩
  | _, _, _, _ => none

/-- The slot that is open is this station's own (R59). -/
def State.ownSlot (s : State) : Bool := s.slotRank.isSome && s.slotRank = s.rank?

/-- TRANSMIT: at the opening of its own slot, an active station that still holds a chosen message begins to transmit it;
one that holds none leaves its slot vacant (R58, R59). -/
def execTransmit (s : State) : Host.Outcome State Fault Refusal :=
  .next <|
    if s.ownSlot && s.drives && s.bus.drive = .recessive then
      match s.outgoing with
      | some m => { s with bus := { s.bus with drive := .message m } }
      | none => s
    else s

/-- READBACK_MISMATCH: a transmitting station stops its message and drives the abort pattern. The outcome ABORTED is
handed on when the slot ends with that pattern (R59, R62, R63, R77). -/
def execReadbackMismatch (s : State) : Host.Outcome State Fault Refusal :=
  .next <|
    match s.bus.drive.transmitting with
    | some _ => { s with bus := { s.bus with drive := .abortPattern } }
    | none => s

/-! ### The end of a slot -/

/-- The controller at the end of a slot: the next slot, or the round end (R58, R60). -/
def BusController.endSlot (b : BusController) : BusController :=
  if b.slot + 1 < b.schedule.length then
    { b with slot := b.slot + 1, slotDamaged := false, drive := .recessive }
  else b.endRound

/-- The outcome ABORTED of a readback mismatch: to the owner first, then the count one higher, and MUTED at the eighth
(R59, R64, R79). -/
def State.readbackAbort (s : State) : State :=
  let s₁ := s.outcomeAborted
  let s₂ := { s₁ with bus := { s₁.bus with aborts := s₁.bus.aborts + 1 } }
  if Config.abortLimit ≤ s₂.bus.aborts then s₂.mute .repeatedAbort else s₂

/-- The outcome of a chosen message that is still held when the own slot ends: the one of the readback mismatch over which
this station drives the abort pattern (R59, R77), or that of a message it did not transmit to its end (log 15). -/
def State.slotOutcome (s : State) : State :=
  if s.ownSlot && s.bus.chosen.isSome then
    if s.bus.drive = .abortPattern then s.readbackAbort else s.outcomeAborted
  else s

/-- A slot ends, with the outcome of a message of this station in it (R58, R59). -/
def State.endSlot (s : State) : State := { s.slotOutcome with bus := s.slotOutcome.bus.endSlot }

/-- MESSAGE_ABORTED: the abort pattern ends the slot and the message is discarded silently (R58, R62). -/
def execMessageAborted (s : State) : Host.Outcome State Fault Refusal :=
  .next <| if s.bus.round = .data then s.endSlot else s

/-- SLOT_VACANT: nothing changes but the move to the next slot or the round end (R58, R60). -/
def execSlotVacant (s : State) : Host.Outcome State Fault Refusal :=
  .next <| if s.bus.round = .data then s.endSlot else s

/-! ### What the owners do with a valid message -/

/-- An entry that takes a header at epoch `heard` (R88). -/
def Peer.heard (p : Peer) (state : Reported) (heard : Epoch) : Peer :=
  { p.found.reports state with lastHeard := some heard, requester := p.requester && state ≠ .inStep }

/-- PEER FOUND for another rank's entry that was ABSENT (R88). -/
def foundRecords (own : Option Rank) (r : Rank) (p : Peer) : List Record :=
  if p.presence = .absent && own ≠ some r then [.event (.peerFound r)] else []

/-- The membership unit takes a header, if the epoch number is known (R88, R89). -/
def State.takeHeader (s : State) (m : Message) : State :=
  match s.timer.epoch with
  | some e =>
    { s with
      members := s.members.update m.rank (Peer.heard · m.state e)
      port := s.port.enqueueAll (foundRecords s.rank? m.rank (s.peer m.rank)) }
  | none => s

/-- The tally takes an AUDIT: window OPEN for its epoch, an IN STEP header, and a digest (R97). -/
def Membership.tallyAudit (m : Membership) (rank : Rank) (state : Reported) (epoch : Epoch) (digest : Option Digest) :
    Membership :=
  match m.window, digest with
  | some w, some d =>
    if w.epoch = epoch && state = .inStep then { m with tally := setRank m.tally rank (some d) } else m
  | _, _ => m

/-- A RESYNC REQUEST sets its sender's requester flag where the entry reports JOINING or DIVERGED and the own epoch is
known (R105). -/
def State.takeRequestBody (s : State) (rank : Rank) : State :=
  if s.timer.epoch.isSome && (s.peer rank).reported.elim false Reported.repairing then
    { s with members := s.members.update rank fun p => { p with requester := true } }
  else s

/-- A RESYNC DONE clears its sender's requester flag (R106). -/
def State.takeDoneBody (s : State) (rank : Rank) : State :=
  { s with members := s.members.update rank fun p => { p with requester := false } }

/-- The cursor moves past a valid BLOCK and both block flags are set (R109). -/
def ResyncUnit.seeBlock (r : ResyncUnit) (b : Fin 66) : ResyncUnit :=
  { r with cursor := b + 1, blockSeen := true, epochBlock := true }

/-- A block number joins the received-block set (R115). -/
def ResyncUnit.receive (r : ResyncUnit) (b : Fin 66) : ResyncUnit := { r with received := r.received.set b true }

/-- The received-block set holds all 66 numbers (R116). -/
def ResyncUnit.full (r : ResyncUnit) : Bool := r.received.toList.all id

/-- The install of a state block, with completion when it is the last (R11, R113, R115, R116). -/
def State.install (s : State) (b : Fin 66) (values : List Item) : State :=
  let s₁ := { s with store := s.store.writeAll values, resync := s.resync.receive b }
  if s₁.resync.full then s₁.repaired .joined else s₁

/-- The three conditions of an install (R113). -/
def State.installs (s : State) (rank : Rank) (epoch : Epoch) : Bool :=
  s.station.state.repairing && (s.peer rank).reported = some .inStep && s.timer.epoch = some epoch

/-- A BLOCK at the resync unit (R109, R113). -/
def State.takeBlock (s : State) (rank : Rank) (b : Fin 66) (epoch : Epoch) (values : List Item) : State :=
  let s₁ := { s with resync := s.resync.seeBlock b }
  if s.installs rank epoch then s₁.install b values else s₁

/-- A body goes to the block that owns its content (R70). -/
def State.takeBody (s : State) (m : Message) : State :=
  match m.body with
  | .update items => { s with store := s.store.stage items }
  | .audit epoch digest => { s with members := s.members.tallyAudit m.rank m.state epoch digest }
  | .resyncRequest => s.takeRequestBody m.rank
  | .resyncDone => s.takeDoneBody m.rank
  | .block b epoch values => s.takeBlock m.rank b epoch values

/-- A valid message of another sender. One that carries the own rank mutes the station first, and its header does not
enter the own entry (R69, R70, R89). What its body then does under the own rank is marked in log 27: an AUDIT is tallied
(DESIGN CHOICE), a RESYNC REQUEST or DONE acts on the own requester flag. -/
def State.takeValid (s : State) (m : Message) : State :=
  if s.rank? = some m.rank then (s.mute .duplicateRank).takeBody m else (s.takeHeader m).takeBody m

/-- The own message ended with a clean readback: the count is 0, the message is taken as received, and its owner gets the
outcome CLEAN (R20, R59, R64, R70). -/
def State.takeOwn (s : State) (m : Message) : State :=
  let s₁ := { s with bus := { s.bus with chosen := none, aborts := 0 } }
  ((s₁.takeHeader m).takeBody m).outcomeClean m.body.kind

/-- What the message of the open slot does: the own clean message, a valid one, or a receive error (R66, R67, R70). One
over which this station drives the abort pattern is aborted and discarded, whatever was read (R62, R63, R65; DEDUCED,
log 35). -/
def State.takeMessage (s : State) (scheduled : Rank) (read : Option (List Byte)) : State :=
  if s.bus.drive = .abortPattern then s
  else
    match s.bus.drive.transmitting with
    | some m => s.takeOwn m
    | none =>
      match classify scheduled (if s.bus.slotDamaged then none else read) with
      | some m => s.takeValid m
      | none => s.receiveError

/-- MESSAGE_RECEIVED: a message ends at an inter-message gap (R58, R66). A station that did not sample the reservation
field takes nothing from it (R66). The slot of a message that this station aborts ends as at MESSAGE_ABORTED (log 35).
-/
def execMessageReceived (read : Option (List Byte)) (s : State) : Host.Outcome State Fault Refusal :=
  .next <|
    match s.slotRank with
    | some r => (s.takeMessage r read).endSlot
    | none => s

end Sys2Proof.Machine
end

