-- ==== Sys2Proof/Machine/Timing.lean ====
section
/-! DEFINITION. Family: line and frame timing. LINE_START and NATURAL_FRAME_END (spec/03_epochs_and_frame_timing.md;
R24, R127, R129). -/

namespace Sys2Proof.Machine

/-- The start of a line by counting; at line A, the blank start, a deferred closed generation is applied (R24, R34). The
pixel path and the store queue their records in either order (R150). -/
def State.countLine (s : State) (c : Settings) : State :=
  let blankStart := s.timer.line + 1 = c.activeLines
  (s.beginLine c (s.timer.line + 1)).eitherOrder (s.lineRecords c (s.timer.line + 1))
    (blankStart && s.store.closed.isSome) fun s => if blankStart then s.applyClosed false else s

/-- LINE_START: while the timer is RUNNING, the next line begins by counting, up to line T-1 (R34). -/
def execLineStart (s : State) : Host.Outcome State Fault Refusal :=
  .next <|
    match s.loader.config with
    | some c => if s.timer.running && s.timer.line + 1 < c.totalLines then s.countLine c else s
    | none => s

/-- What a natural frame end does to frame phase and mark pending (R36). -/
def EpochTimer.frameEnd (t : EpochTimer) (active : Bool) : EpochTimer :=
  match t.phase with
  | .waiting | .ended => { t with phase := .ended, markPending := t.markPending || active }
  | .covered => { t with phase := .waiting }

/-- Founding: IN STEP at epoch 0 with staging open and mark pending set (R18, R47, R129). The resync unit is left as it is,
with what a BLOCK heard while LISTENING set in it (DESIGN CHOICE, log 30). -/
def State.found (s : State) : State :=
  { s with
    station := ⟨.inStep, 0⟩
    timer := { s.timer with epoch := some 0, markPending := true }
    store := s.store.openStaging
    members := s.members.updateOwn s.rank? Peer.ownInStep
    port := s.port.enqueue (.event .founded) }

/-- This natural frame end brings the listen count of a LISTENING station to S (R129). -/
def State.founds (s : State) (c : Settings) : Bool :=
  s.station.state = .listening && c.silenceLimit ≤ s.station.listenCount + 1

/-- The listen count of a LISTENING station, and founding when it reaches S (R127, R129). -/
def State.listen (s : State) (c : Settings) : State :=
  if s.founds c then s.found
  else if s.station.state = .listening then
    { s with station := { s.station with listenCount := s.station.listenCount + 1 } }
  else s

/-- A natural frame end: line 0 begins, the frame phase moves, and the station controller counts (R36, R127). The pixel
path and the station controller queue their records in either order (R150). -/
def State.endFrame (s : State) (c : Settings) : State :=
  let s₁ := s.beginLine c 0
  State.eitherOrder { s₁ with timer := s₁.timer.frameEnd s₁.active } (s.lineRecords c 0) (s.founds c)
    fun s => s.listen c

/-- NATURAL_FRAME_END: line T-1 ends (R36). -/
def execNaturalFrameEnd (s : State) : Host.Outcome State Fault Refusal :=
  .next <|
    match s.loader.config with
    | some c => if s.timer.running && s.timer.line + 1 = c.totalLines then s.endFrame c else s
    | none => s

end Sys2Proof.Machine
end

