-- ==== Sys2Proof/Machine/Video.lean ====
section
/-! DEFINITION. The video output: the colour of each pixel as a function of the state, read at the moment the pixel is
composed (spec/10_the_pixel_path.md, 10.2 and 10.3; R13, R136; log 13). It has no row of the table and changes nothing. -/

namespace Sys2Proof.Machine

/-- The colour of a palette slot (R160). -/
def WallState.palette (w : WallState) (i : Byte) : Colour := w.slots[i.toNat]'(by omega)

/-- The backdrop colour, special slot 256 (R160). -/
def WallState.backdrop (w : WallState) : Colour := w.slots[256]

/-- The base colour of a show-buffer entry (R160). -/
def baseColour (w : WallState) : Option Pixel → Colour
  | none => w.backdrop
  | some (.index i) => w.palette i
  | some (.direct overlay colour) => if overlay = 0#8 then colour else w.palette overlay

/-- One axis of the pointer's coverage: the cell of the image at wall coordinate `cell`, the image starting at `start`;
nothing beyond 32767 (R161). -/
def coveredCell (start cell : Nat) : Option (Fin 32) :=
  if start ≤ cell && cell ≤ 32767 then (if h : cell - start < 32 then some ⟨cell - start, h⟩ else none) else none

/-- The pointer's code at a wall position; 0 where the pointer does not cover it (R4, R161). -/
def WallState.pointerCode (w : WallState) (x y : Nat) : BitVec 2 :=
  match w.visibility, coveredCell w.position.x.toNat x, coveredCell w.position.y.toNat y with
  | .shown, some column, some row => rowCode w.rows[row] column
  | _, _, _ => 0

/-- The pointer colour of a code 1 to 3: special slot 256 + code (R4). -/
def WallState.pointerColour (w : WallState) (code : BitVec 2) : Colour := w.slots[256 + code.toNat]'(by omega)

/-- A composed pixel: the pointer over the base colour, all values from one wall state (R13, R160, R161). -/
def compose (c : Settings) (w : WallState) (shown : LineBuffer) (u v : Nat) : Colour :=
  let code := w.pointerCode (c.originX + u) (c.originY + v)
  if code = 0 then baseColour w shown[u]? else w.pointerColour code

/-- The station states whose output is composed (R136, R162). -/
def StationState.composing : StationState → Bool
  | .inStep | .diverged | .muted => true
  | .configuring | .configFault | .listening | .joining => false

/-- The video output for pixel `u` of the line in progress: nothing while the timer is STOPPED or in a blank line, black
in LISTENING and JOINING, else the composed pixel (R34, R136, R162). -/
def State.videoOut (s : State) (u : Nat) : Option Colour :=
  match s.loader.config with
  | none => none
  | some c =>
    if s.timer.running && s.timer.line < c.activeLines && u < c.width then
      if s.station.state.composing then some (compose c s.store.wall s.pixel.shown u s.timer.line) else some black
    else none

end Sys2Proof.Machine
end

