-- ==== Sys2Proof/Machine/Dispatch.lean ====
section
/-! DEFINITION. One arm per command: each calls its own meaning. -/

namespace Sys2Proof.Machine

def exec (i : Instr) (s : State) : Host.Outcome State Fault Refusal :=
  match i with
  | .reset => Sys2Proof.Machine.execReset s
  | .configurationComplete x => Sys2Proof.Machine.execConfigurationComplete x s
  | .pixelWord x => Sys2Proof.Machine.execPixelWord x s
  | .commandWord x => Sys2Proof.Machine.execCommandWord x s
  | .unknownCommand x => Sys2Proof.Machine.execUnknownCommand x s
  | .setColors x => Sys2Proof.Machine.execSetColors x s
  | .setPointerRow x => Sys2Proof.Machine.execSetPointerRow x s
  | .movePointer x => Sys2Proof.Machine.execMovePointer x s
  | .pointerVisibility x => Sys2Proof.Machine.execPointerVisibility x s
  | .withdraw x => Sys2Proof.Machine.execWithdraw x s
  | .readTarget x => Sys2Proof.Machine.execReadTarget x s
  | .status x => Sys2Proof.Machine.execStatus x s
  | .rejoin x => Sys2Proof.Machine.execRejoin x s
  | .recordSent => Sys2Proof.Machine.execRecordSent s
  | .lineStart => Sys2Proof.Machine.execLineStart s
  | .naturalFrameEnd => Sys2Proof.Machine.execNaturalFrameEnd s
  | .seekGap => Sys2Proof.Machine.execSeekGap s
  | .idleGap => Sys2Proof.Machine.execIdleGap s
  | .driveStartPulse => Sys2Proof.Machine.execDriveStartPulse s
  | .startPulse => Sys2Proof.Machine.execStartPulse s
  | .originField x => Sys2Proof.Machine.execOriginField x s
  | .markSlot x => Sys2Proof.Machine.execMarkSlot x s
  | .mark x => Sys2Proof.Machine.execMark x s
  | .sendSelection => Sys2Proof.Machine.execSendSelection s
  | .reservationField x => Sys2Proof.Machine.execReservationField x s
  | .fieldFault => Sys2Proof.Machine.execFieldFault s
  | .transmit => Sys2Proof.Machine.execTransmit s
  | .readbackMismatch => Sys2Proof.Machine.execReadbackMismatch s
  | .messageAborted => Sys2Proof.Machine.execMessageAborted s
  | .slotVacant => Sys2Proof.Machine.execSlotVacant s
  | .messageReceived x => Sys2Proof.Machine.execMessageReceived x s
  | .dominantLevel => Sys2Proof.Machine.execDominantLevel s

end Sys2Proof.Machine
end

