-- ==== Sys2Proof/Machine/Step.lean ====
section
/-! DEFINITION. One step: the command at the front of the queue is run; an empty queue leaves the station idle (log 2). -/

namespace Sys2Proof.Machine

/-- The state with the queue replaced. -/
def State.withQueue (s : State) (queue : List Instr) : State := { s with pending := queue }

/-- Take the front command and run it on the state with the queue's rest; idle on an empty queue. -/
def step (s : State) : Host.Outcome State Fault Refusal :=
  match s.pending with
  | [] => .next s
  | c :: rest => exec c (s.withQueue rest)

/-- The state with the command that a table word spells put at the front of the queue; unchanged where it spells none,
which is every word, since the table gives no row any bits (log 14). -/
def State.withFetchWord (s : State) (nbits w : Nat) : State :=
  match decodeTableWord nbits w with
  | some c => s.withQueue (c :: s.pending)
  | none => s

end Sys2Proof.Machine
end

