-- ==== Sys2Proof/Safety.lean ====
section
/-! DEFINITION. What holds of a station at every moment of a run: the invariants that claims about every state name.
Each is a decidable proposition over the state, cites the rules that promise it, and is kept by every step. -/

namespace Sys2Proof.Safety

open Sys2Proof.Machine

/-- The running digest is the sum of h over all 294 targets of the wall state (R7). -/
abbrev DigestFollowsWall (s : State) : Prop := s.store.digest = s.store.wall.digest

/-- At most one entry per target, entries in ascending target number (R17). -/
abbrev CanonicalGeneration (items : List Item) : Prop :=
  items.Pairwise fun i j => i.target.number < j.target.number

/-- Both staging generations hold at most one entry per target (R17). -/
abbrev GenerationsCanonical (s : State) : Prop :=
  CanonicalGeneration s.store.opened ∧ ∀ g ∈ s.store.closed, CanonicalGeneration g.items

/-- At most 16 records, and an omitted count of at most 255 in the port and on every record (R150, R151). -/
abbrev ReportsBounded (s : State) : Prop :=
  s.port.reports.length ≤ Config.reportCapacity ∧ s.port.omitted ≤ Config.omittedLimit ∧
    ∀ r ∈ s.port.reports, r.omitted ≤ Config.omittedLimit

/-- An account with items left, of the 1 to 8 items its command made (R72, R85). -/
abbrev AccountOpen (a : Account) : Prop :=
  1 ≤ a.made ∧ a.made ≤ 8 ∧ a.posted + a.removed < a.made ∧ (a.posted = 0 → a.lastPosting = none)

/-- At most 32 items, at most 4 of them in flight, and every item of the queue counted by exactly one account that has
items left (R72, R73, R85). -/
abbrev QueueAccounted (s : State) : Prop :=
  s.command.queue.length ≤ Config.queueCapacity ∧ s.command.inFlight ≤ Config.batchLimit ∧
    s.command.inFlight ≤ s.command.queue.length ∧
    (s.command.accounts.map Account.remaining).sum = s.command.queue.length ∧
    ∀ a ∈ s.command.accounts, AccountOpen a

/-- The station has completed its configuration (R125). -/
abbrev Configured (s : State) : Prop :=
  s.station.state ≠ .configuring ∧ s.station.state ≠ .configFault

/-- The timer runs, a valid record is in effect and the controller follows the bus exactly from configuration on; the
line and the last offset stay within the frame; nothing is transmitted before configuration (R32, R33, R51, R125, R166). -/
abbrev TimingSound (s : State) : Prop :=
  (s.timer.running = true ↔ Configured s) ∧ (s.loader.config.isSome = true ↔ Configured s) ∧
    (s.bus.round = .off ↔ ¬Configured s) ∧
    (∀ c ∈ s.loader.config, settingsInRange c = true ∧ s.timer.line < c.totalLines ∧
      ∀ m ∈ s.timer.lastOffset, -(c.totalLines : Int) ≤ m ∧ m < c.totalLines) ∧
    (s.loader.config = none → s.timer.line = 0 ∧ s.timer.lastOffset = none) ∧
    (Configured s ∨ s.bus.drive.transmitting = none)

/-- The epoch is known exactly while staging is OPEN, in every active state, and in none before the first mark; with
staging CLOSED both generations are empty, mark pending is set in an active state only, and no round is followed before
configuration (R18, R37, R39, R48, R51). -/
abbrev EpochSound (s : State) : Prop :=
  (s.timer.epoch.isSome = s.store.staging) ∧
    (s.active = true → s.timer.epoch.isSome = true) ∧
    (s.active = false → s.station.state ≠ .muted → s.timer.epoch = none) ∧
    (s.store.staging = false → s.store.opened = [] ∧ s.store.closed = none) ∧
    (s.timer.markPending = true → s.active = true) ∧
    (Configured s ∨ s.bus.round = .off)

/-- The own rank is still to have its slot in the round in progress. -/
abbrev SlotToCome (s : State) : Prop := ∃ r ∈ s.rank?, r ∈ s.bus.schedule.drop s.bus.slot

/-- A message is chosen only by an active station that drives in the round, between its send selection and the end of its
slot; a message in transmission is of the chosen kind; the in-flight batch is the batch of a chosen UPDATE; a schedule
exists in the data phase only; a part driven field belongs to a station that stopped driving within the field sequence; an
active station has a rank; the consecutive-abort count reaches 8 only with muting; no round is followed before
configuration (R49, R51, R57, R59, R64, R72, R125). -/
abbrev BusSound (s : State) : Prop :=
  (s.bus.chosen ≠ none → s.active = true ∧ s.bus.driving = true ∧
    (s.bus.round = .fields ∧ s.bus.field = .selected ∨ s.bus.round = .data ∧ SlotToCome s)) ∧
    (s.command.inFlight ≠ 0 ↔ s.bus.chosen = some .update) ∧
    (s.command.withdrawMark = true → s.command.inFlight ≠ 0) ∧
    (s.bus.round = .data ∧ s.bus.slot < s.bus.schedule.length ∨
      s.bus.round ≠ .data ∧ s.bus.slot = 0 ∧ s.bus.schedule = []) ∧
    (s.bus.driving = true → s.active = true) ∧
    (s.bus.partDriven ≠ BitVec.allOnes 16 → s.bus.driving = false ∧ s.bus.round = .fields) ∧
    (s.active = true → s.rank?.isSome = true) ∧
    (∀ m ∈ s.bus.drive.transmitting, s.bus.chosen = some m.body.kind) ∧
    s.bus.aborts ≤ Config.abortLimit ∧ (s.bus.aborts = Config.abortLimit → s.station.state = .muted) ∧
    (Configured s ∨ s.bus.round = .off)

/-- The own entry follows the station state (R87): PRESENT exactly in the four states that follow the wall, its reported
state the station's in the active ones, its requester flag clear while IN STEP. -/
abbrev OwnEntryFollows (s : State) : Prop :=
  ∀ r ∈ s.rank?,
    ((s.peer r).presence = .present ↔ s.active = true ∨ s.station.state = .muted) ∧
      (s.active = true → (s.peer r).reported = s.station.state.reported) ∧
      (s.station.state = .inStep → (s.peer r).requester = false)

/-- The repair of a station and its table: the own entry follows the station; a set requester flag is of a PRESENT rank
(R106); nothing received, no wait, no request pending outside JOINING and DIVERGED (R104, R115,
R116, R119, R120); before configuration the station follows no round and no rank is PRESENT (R51, R86); a message in
transmission carries the own rank and the present state (R59). -/
abbrev RepairSound (s : State) : Prop :=
  OwnEntryFollows s ∧
    (∀ r ∈ allRanks, (s.peer r).requester = true → (s.peer r).presence = .present) ∧
    (s.station.state.repairing = false →
      s.resync.received = noBlocks ∧ s.resync.wait = 0 ∧ s.resync.requestPending = false) ∧
    (s.resync.donePending = true → s.station.state = .inStep) ∧
    s.resync.full = false ∧
    (Configured s ∨ s.bus.round = .off ∧ ∀ r ∈ allRanks, (s.peer r).presence = .absent) ∧
    (∀ m ∈ s.bus.drive.transmitting,
      s.bus.round = .data ∧ s.rank? = some m.rank ∧ s.station.state.reported = some m.state)

/-- The own audit: a stage other than NONE belongs to an active station with an OPEN window; a pending digest has its
record; a stage that waits for an apply waits for a PENDING generation, and comes due as a digest only at a station that
stayed IN STEP; a window counts 0 or 1 marks and is OPEN only with
a known epoch; a tally is of an OPEN window; a repairing station's own tally entry is younger than its repair, so that a
promoting station has none (R93 to R98, R121). -/
abbrev AuditSound (s : State) : Prop :=
  (s.members.stage ≠ .none → s.active = true ∧ s.members.window.isSome = true) ∧
    (s.members.stage = .pending .digest → s.members.record.isSome = true) ∧
    (s.members.stage = .awaitingApply .digest → s.station.state = .inStep ∧ s.store.closed.isSome = true) ∧
    (s.members.stage = .awaitingApply .heartbeat → s.store.closed.isSome = true) ∧
    (∀ w ∈ s.members.window, w.marks ≤ 1) ∧
    (∀ w ∈ s.members.window, ∀ a ∈ s.members.record, a.epoch = w.epoch) ∧
    (s.members.window.isSome = true → s.timer.epoch.isSome = true) ∧
    (∀ r ∈ allRanks, (atRank s.members.tally r).isSome = true → s.members.window.isSome = true) ∧
    (∀ r ∈ s.rank?, s.station.state.repairing = true → (atRank s.members.tally r).isSome = true →
      ∃ w ∈ s.members.window, s.resync.wait ≤ w.marks)

/-! ### The vocabulary of the statements

What the statements compare the machine with, written from the tables of the rules and not from the meanings. -/

/-- `payload` is the last word of a command of this kind code, tag and arguments (R139). -/
abbrev Completes (s : State) (payload : Word) (kind : Byte) (tag : Tag) (args : List Word) : Prop :=
  assemble s.port.assembly payload = .complete ⟨kind, tag, args⟩

/-- The source port after the last word of a command: no incomplete command is held (R139). -/
abbrev portAfterCommand (s : State) : SourcePort := { s.port with assembly := none }

/-- The row of the table that takes the last word of a command of a kind code (R140, R170). -/
def commandRow (kind : Nat) (payload : Word) : Instr :=
  match kind with
  | 1 => .setColors payload
  | 2 => .setPointerRow payload
  | 3 => .movePointer payload
  | 4 => .pointerVisibility payload
  | 5 => .withdraw payload
  | 6 => .readTarget payload
  | 7 => .status payload
  | 8 => .rejoin payload
  | _ => .unknownCommand payload

/-- Bits 7–0 of a word. -/
def low8 (w : Word) : Nat := w.toNat % 256

/-- Bits 15–0 of a word. -/
def low16 (w : Word) : Nat := w.toNat % 65536

/-- Bits 31–16 of a word. -/
def high16 (w : Word) : Nat := w.toNat / 65536

/-- The length a kind requires (R170). -/
def requiredLength (kind : Nat) (args : List Word) : Nat :=
  match kind with
  | 1 => 1 + low8 (args.headD 0)
  | 2 => 3
  | 3 => 1
  | 4 => 1
  | 6 => 1
  | _ => 0

/-- The four item-making kinds (R73). -/
def itemMaking (kind : Nat) : Bool := 1 ≤ kind && kind ≤ 4

/-- How many items a command of an item-making kind makes (R73). -/
def itemCount (kind : Nat) (args : List Word) : Nat := if kind = 1 then low8 (args.headD 0) else 1

/-- An argument lies outside its domain (R142 to R145, R147). -/
def argumentOutOfRange (kind : Nat) (args : List Word) : Bool :=
  let w := args.headD 0
  match kind with
  | 1 => low8 w = 0 || 8 < low8 w || 259 < high16 w || 259 < high16 w + low8 w - 1
  | 2 => 31 < low8 w
  | 3 => 32767 < high16 w || 32767 < low16 w
  | 4 => 1 < low8 w
  | 6 => 293 < low16 w
  | _ => false

/-- The refusal the tests of R140 give, in their order; none for a command that passes them all. -/
def refusal (s : State) (kind : Nat) (args : List Word) : Option RefusalReason :=
  if kind = 0 ∨ 8 < kind ∨ args.length ≠ requiredLength kind args then some .malformed
  else if itemMaking kind && !s.active || kind = 8 && (s.station.state = .configuring || s.station.state = .configFault) then
    some .notActive
  else if argumentOutOfRange kind args then some .range
  else if itemMaking kind && 32 < s.command.queue.length + itemCount kind args then some .queueFull
  else none

/-- The items queued before those of account `i`: accounts stand in intake order and items leave in queue order (R72). -/
def itemsAhead (accounts : List Account) (i : Nat) : Nat := ((accounts.take i).map Account.remaining).sum

/-- What R158 and R159 make of the pixel path at the start of line `line`. -/
def pixelAtLineStart (c : Settings) (line : Nat) (p : PixelPath) : PixelPath :=
  let short := p.shortFlag && line ≠ 0
  let long := p.longFlag && line ≠ 0
  if line < c.activeLines then
    { fill := [], shown := p.fill, shortFlag := short || p.fill.length < c.width, longFlag := long }
  else { fill := [], shown := p.shown, shortFlag := short, longFlag := long || p.fill ≠ [] }

/-- The records R158 and R159 queue at the start of a line. -/
def pixelRecords (c : Settings) (line ended : Nat) (p : PixelPath) : List Record :=
  if line < c.activeLines then
    if p.fill.length < c.width && !(p.shortFlag && line ≠ 0) then [.event (.sourceShort line)] else []
  else if p.fill ≠ [] && !(p.longFlag && line ≠ 0) then [.event (.sourceLong ended)]
  else []

/-- The source port with the cue of a line that begins (R35). -/
def cuedPort (s : State) (c : Settings) (line : Nat) : SourcePort :=
  { s.port with cue := some ⟨line, line < c.activeLines⟩ }

/-- The source port at the start of a line: the cue of R35, then the records of the pixel path. -/
def portAtLineStart (s : State) (c : Settings) (line : Nat) : SourcePort :=
  (cuedPort s c line).enqueueAll (pixelRecords c line s.timer.line s.pixel)

/-- Two blocks have queued records, one after the other in either order (R150). -/
def QueuedInEitherOrder (before : SourcePort) (records records' : List Record) (after : SourcePort) : Prop :=
  after = (before.enqueueAll records).enqueueAll records' ∨ after = (before.enqueueAll records').enqueueAll records

/-- The free choice that two blocks take for their order: one, if both queue records (log 8). -/
def choicesFor (records records' : List Record) : Nat := if records = [] ∨ records' = [] then 0 else 1

/-- The value a generation gives a target, if it has an entry for it (R17). -/
def entryFor (items : List Item) (t : Target) : Option Item := items.find? fun i => i.target = t

/-- An entry is eligible: PRESENT, reporting IN STEP, not MISMATCH; the own one only in IN STEP (R92). -/
def eligibleEntry (s : State) (r : Rank) : Bool :=
  let p := s.members.table[r.toNat]
  p.presence = .present && p.reported = some .inStep && p.verdict ≠ .mismatch &&
    (s.loader.config.map Settings.rank ≠ some r || s.station.state = .inStep)

/-- The station is provider: IN STEP, its own entry eligible and no lower rank's (R110). -/
def isProvider (s : State) : Bool :=
  match s.loader.config with
  | some c =>
    s.station.state = .inStep && eligibleEntry s c.rank &&
      (List.finRange 16).all fun r => c.rank.toNat ≤ r.val || !eligibleEntry s (BitVec.ofFin r)
  | none => false

/-- Some requester flag is set (section 7.2). -/
def someRequester (s : State) : Bool := (List.finRange 16).any fun r => (s.members.table[r]).requester

/-- The table of R74, with the alternation of R75 at candidate 4. -/
def selection (s : State) : Option MessageKind :=
  if s.resync.donePending then some .resyncDone
  else if s.members.stage = .pending .digest || s.members.stage = .pending .heartbeat then some .audit
  else if s.resync.requestPending then some .resyncRequest
  else if isProvider s && someRequester s && s.store.closed = none &&
      (s.command.queue.length = 0 || s.command.lastWasBlock = false) then
    some .block
  else if 0 < s.command.queue.length then some .update
  else none

/-- A body is the one that R76, R96 and R111 give for the chosen kind at the opening of the slot. -/
def BodyFor (s : State) (kind : MessageKind) (epoch : Epoch) (body : Body) : Prop :=
  match kind with
  | .update => body = .update ((s.command.queue.take s.command.inFlight).map QueuedItem.item)
  | .audit =>
    ∃ w ∈ s.members.window,
      (s.members.stage = .pending .heartbeat ∧ body = .audit w.epoch none) ∨
        (s.members.stage = .pending .digest ∧ ∃ a ∈ s.members.record, body = .audit w.epoch (some a.digest))
  | .resyncRequest => body = .resyncRequest
  | .resyncDone => body = .resyncDone
  | .block => body = .block s.resync.cursor epoch ((blockTargets s.resync.cursor).map s.store.wall.item)

/-- A controller that follows no round any more (R49, R51, R57): no schedule, nothing chosen, nothing driven. -/
def outsideRound (b : BusController) (round : RoundState) : BusController :=
  { b with round := round, schedule := [], chosen := none, slot := 0, field := .origin, driving := false
           slotDamaged := false, drive := .recessive, partDriven := BitVec.allOnes 16, recessive := .below }

/-- The controller after a slot: the next slot of the schedule, or the round end with belief (last + 1) modulo 16
(R58, R60). -/
def busAfterSlot (b : BusController) : BusController :=
  if b.slot + 1 < b.schedule.length then
    { b with slot := b.slot + 1, slotDamaged := false, drive := .recessive }
  else
    { b with round := .gap, schedule := [], slot := 0, field := .origin, driving := false, slotDamaged := false
             drive := .recessive, partDriven := BitVec.allOnes 16, recessive := .below
             belief := match b.schedule.getLast? with
               | some last => last + 1
               | none => b.belief }

/-- A message of another sender ends the slot of rank `m.rank`, and this station reads it as the valid message `m`; it
transmits nothing itself and drives no abort pattern over it (R58, R66). -/
abbrev HearsValid (s : State) (m : Message) (read : Option (List Byte)) : Prop :=
  s.bus.round = .data ∧ s.bus.schedule[s.bus.slot]? = some m.rank ∧ s.bus.drive.transmitting = none ∧
    s.bus.drive ≠ .abortPattern ∧ s.bus.slotDamaged = false ∧ classify m.rank read = some m ∧
    s.loader.config.map Settings.rank ≠ some m.rank

/-- A mark round's epoch field is sampled by a running, configured station that followed the round to it (R55). -/
abbrev SamplesMark (s : State) (c : Settings) : Prop :=
  s.loader.config = some c ∧ s.timer.running = true ∧ s.bus.round = .fields ∧ s.bus.field = .epoch

/-- The station drives the fields of the round in progress (R57). -/
abbrev Drives (s : State) : Prop := s.active = true ∧ s.bus.driving = true

/-- What the station drives in the epoch field: its epoch number plus 1, or the part of a field it drove before it stopped
(R39, R57). -/
def ownEpochField (s : State) : Epoch :=
  match s.timer.epoch with
  | some e => if s.active && s.bus.driving then e + 1 else s.bus.partDriven
  | none => s.bus.partDriven

/-- The value the bus carries in the epoch field: the wired AND of what the others and this station drive (R39). -/
def adoptedEpoch (s : State) (others : Epoch) : Epoch := others &&& ownEpochField s

/-- The level of rank `r`'s bit in the reservation field as this station drives it, true being recessive: its own bit
dominant if it has chosen a message, or the part of the field it drove before it stopped (R56, R57). -/
def ownReservation (s : State) (r : Rank) : Bool :=
  if Drives s ∧ s.bus.chosen ≠ none ∧ s.loader.config ≠ none then s.loader.config.map Settings.rank ≠ some r
  else s.bus.partDriven.getLsbD r.toNat

/-- `part` is what a station that stops driving at once has driven of the field in progress: the first bits of what it
drives there, in the order they are sent, and recessive after them. How many is open, since a command may be taken at any
bit; the reservation field has begun once the send selection was made, and the mark slot is one bit (R57, R65, log 29). -/
def DrivenPart (s : State) (part : BitVec 16) : Prop :=
  if Drives s ∧ s.bus.round = .fields then
    match s.bus.field with
    | .origin => ∃ n ≤ 4, ∀ i < 4, part.getLsbD i = (i < 4 - n || s.bus.belief.getLsbD i)
    | .epoch => ∃ n ≤ 16, ∀ i < 16, part.getLsbD i =
        (i < 16 - n || s.timer.epoch.elim true fun e => (e + 1).getLsbD i)
    | .selected => ∃ n ≤ 16, 1 ≤ n ∧ ∀ r : Rank, part.getLsbD r.toNat = (n ≤ r.toNat || ownReservation s r)
    | .markSlot | .reservation => part = BitVec.allOnes 16
  else part = s.bus.partDriven

/-- The offset of R41 at a mark sampled at line `n`. -/
def markOffset (c : Settings) (phase : FramePhase) (n : Nat) : Int :=
  if phase = .ended then n else (n : Int) - c.totalLines

/-- The wall state with the entries of a generation written (R10). -/
abbrev WritesEntries (before after : WallState) (items : List Item) : Prop :=
  ∀ t : Target, after.item t = (entryFor items t).getD (before.item t)

/-- The membership table with the own entry changed (R87). -/
def withOwnEntry (s : State) (f : Peer → Peer) : Membership :=
  match s.loader.config with
  | some c => { s.members with table := s.members.table.set c.rank.toNat (f s.members.table[c.rank.toNat]) }
  | none => s.members

/-- The own entry of a station that becomes JOINING or DIVERGED (R87, R88). -/
def activeEntry (reported : Reported) (p : Peer) : Peer :=
  { p with presence := .present, reported := some reported, verdict := .none }

/-- The own entry of a station that becomes IN STEP (R87, R106). -/
def inStepEntry (p : Peer) : Peer :=
  { p with presence := .present, reported := some .inStep, verdict := .none, requester := false }

/-- The resync unit with an empty received-block set, its counter 0, both block flags clear and the given pending flags
(R107, R116, R119, R120). -/
def emptiedResync (r : ResyncUnit) (request done : Bool) : ResyncUnit :=
  { received := Vector.replicate 66 false, cursor := r.cursor, wait := 0, blockSeen := false, epochBlock := false
    requestPending := request, donePending := done }

/-- An IN STEP station that becomes DIVERGED; an own audit that waits for an apply comes due as a heartbeat
(R131, R107, R95). -/
def divergedState (s : State) (cause : DivergeCause) : State :=
  { s with
    station := { s.station with state := .diverged }
    members :=
      { withOwnEntry s (activeEntry .diverged) with
        stage := match s.members.stage with
          | .awaitingApply _ => .awaitingApply .heartbeat
          | stage => stage }
    resync := emptiedResync s.resync true false
    port := s.port.enqueue (.event (.diverged cause)) }

/-- A repairing station that becomes IN STEP (R116, R119). -/
def repairedState (s : State) (event : Event) : State :=
  { s with
    station := { s.station with state := .inStep }
    members := withOwnEntry s inStepEntry
    resync := emptiedResync s.resync false true
    port := s.port.enqueue (.event event) }

/-- The table of R67. -/
def afterReceiveError (s : State) : State :=
  match s.station.state with
  | .inStep => divergedState s .receiveError
  | .joining | .diverged => { s with resync := { s.resync with received := Vector.replicate 66 false } }
  | .muted => { s with bus := { s.bus with suspect := true } }
  | .listening | .configuring | .configFault => s

/-- A station that becomes MUTED, the MUTED record first, then one SETTLED record for each account in intake order, its
unsent items counted as removed (R132, R80, R120). -/
def mutedState (s : State) (cause : MuteCause) : State :=
  { s with
    station := { s.station with state := .muted }
    port := (s.port.enqueue (.event (.muted cause))).enqueueAll
      (s.command.accounts.map fun a =>
        .settled a.tag a.posted (a.removed + (a.made - a.posted - a.removed)) a.lastPosting)
    command := ⟨[], 0, false, [], false⟩
    bus :=
      { s.bus with
        chosen := none
        driving := false
        drive := match s.bus.drive with
          | .message _ | .abortPattern => .abortPattern
          | .recessive | .startPulse | .reservationBit => .recessive }
    timer := { s.timer with markPending := false }
    members := { withOwnEntry s (fun p => { p with presence := .present }) with stage := .none, record := none }
    resync := emptiedResync s.resync false false }

/-- The reference digest of R99: held by as many tallied ranks as any, and among those the one whose lowest holder is
lowest. -/
def IsReference (tally : Vector (Option Digest) 16) (d : Digest) : Prop :=
  let holders := fun d : Digest => (List.finRange 16).filter fun r => tally[r] = some d
  0 < (holders d).length ∧
    ∀ d' : Digest, (holders d').length ≤ (holders d).length ∧
      ((holders d').length = (holders d).length → ∀ r ∈ holders d', ∃ q ∈ holders d, q ≤ r)

/-- A peer whose last-heard epoch is S or more behind the adopted one (R91). -/
def silentFor (c : Settings) (adopted : Epoch) (p : Peer) : Bool :=
  match p.lastHeard with
  | some heard => c.silenceLimit ≤ (adopted - heard).toNat
  | none => false

/-- The transitions of the table of section 8.1, with their causes as rows of the opcode table. -/
def Transition (c : Instr) : StationState → StationState → Prop
  | _, .configuring => c = .reset
  | .configuring, .listening | .configuring, .configFault => ∃ read, c = .configurationComplete read
  | .listening, .joining => ∃ others, c = .mark others
  | .listening, .inStep => c = .naturalFrameEnd
  | .joining, .inStep | .diverged, .inStep => (∃ others, c = .mark others) ∨ ∃ read, c = .messageReceived read
  | .inStep, .diverged =>
    c = .fieldFault ∨ c = .startPulse ∨ (∃ others, c = .mark others) ∨ ∃ read, c = .messageReceived read
  | .listening, .muted => ∃ read, c = .messageReceived read
  | .joining, .muted | .inStep, .muted | .diverged, .muted =>
    c = .messageAborted ∨ c = .slotVacant ∨ ∃ read, c = .messageReceived read
  | .joining, .listening | .inStep, .listening | .diverged, .listening | .muted, .listening =>
    ∃ payload, c = .rejoin payload
  | _, _ => False

/-- The membership unit after the close of a window: the decision of R99 and R100 taken, then no window, no own audit and an
empty tally (R98). -/
def membersAfterClose (m : Membership) : Membership :=
  { m.decide with window := none, stage := .none, record := none, tally := Vector.replicate 16 none }

/-- The close of the window `w` (R98, R101): AUDIT LATE for an unsent own AUDIT, the decision, and the divergence of an
IN STEP station whose own verdict it made MISMATCH. -/
def windowClosed (s : State) (w : AuditWindow) : State :=
  let unsent := s.members.stage ≠ .none && s.members.stage ≠ .sent .digest && s.members.stage ≠ .sent .heartbeat
  let late :=
    { s with
      members := membersAfterClose s.members
      port := if unsent then s.port.enqueue (.event (.auditLate w.epoch)) else s.port }
  let mismatched : Bool :=
    match s.loader.config with
    | some c => (s.members.decide.table[c.rank.toNat]).verdict = .mismatch
    | none => false
  let decided : Bool := (List.finRange 16).any fun r => s.members.tally[r] ≠ none
  if s.station.state = .inStep && decided && mismatched then
    divergedState late .auditMismatch
  else late

/-- The opening of the window for the adopted epoch, with the own audit stage by the table of R94. -/
def windowOpened (s : State) (adopted : Epoch) : State :=
  { s with
    members :=
      { s.members with
        window := some ⟨adopted, 0⟩
        tally := Vector.replicate 16 none
        record := if s.station.state = .inStep ∧ s.store.closed = none then some ⟨adopted, s.store.digest⟩ else none
        stage :=
          match s.station.state with
          | .inStep => if s.store.closed = none then .pending .digest else .awaitingApply .digest
          | .joining | .diverged => .pending .heartbeat
          | .muted | .listening | .configuring | .configFault => .none } }

/-- The membership unit after an apply: an own audit that waited for it takes the digest the apply left, or becomes a
pending heartbeat (R95). -/
def membersAfterApply (m : Membership) (digest : Digest) : Membership :=
  match m.window with
  | some w =>
    if m.stage = .awaitingApply .digest then { m with stage := .pending .digest, record := some ⟨w.epoch, digest⟩ }
    else if m.stage = .awaitingApply .heartbeat then { m with stage := .pending .heartbeat }
    else m
  | none => m

/-! ### What the blocks do at a mark, one after the other (R38) -/

/-- The epoch timer's part of a mark (`MarksCorrectTheTimer`, `MarksReportSlipsAndJumps`). -/
def timerAct (s : State) (c : Settings) (others : Epoch) (t : State) : State := t.timerMark c (adoptedEpoch s others)

/-- The wall state store's part of a mark, with the line before the correction (`MarksCloseTheGeneration`). -/
def storeAct (s : State) (c : Settings) (others : Epoch) (t : State) : State :=
  t.storeMark c s.timer.line (adoptedEpoch s others) (markOffset c s.timer.phase s.timer.line)

/-- The membership unit's part of a mark: with a known epoch the renumbering, the silence check and the window; at the mark
that makes the epoch known only the opening of a window (R102; `SilentPeersAreLost`, `AuditWindowsOpenAndClose`). -/
def memberAct (s : State) (c : Settings) (others : Epoch) (t : State) : State :=
  let adopted := adoptedEpoch s others
  match s.timer.epoch with
  | some old =>
    (State.checkSilence { t with members := t.members.renumber s.rank? old adopted } c adopted).windowMark c adopted
  | none => if adopted.toNat % c.auditInterval = 0 then windowOpened t adopted else t

/-- The records of the line 0 that a mark begins by a corrective wrap or a timing jump (R43, R44, R158, R159). -/
def begunRecords (s : State) (c : Settings) : List Record :=
  let behind := c.totalLines - s.timer.line
  if s.timer.phase ≠ .ended ∧ (c.lockWindow < behind ∨ behind ≤ c.slewLimit) then
    pixelRecords c 0 s.timer.line s.pixel
  else []

/-- Several acts, one after the other. -/
def actAll (acts : List (State → State)) (s : State) : State := acts.foldl (fun t act => act t) s

/-- The report queue after several acts, with `records` queued before, between or after them (R150, log 8). -/
def QueuedAmong (records : List Record) (acts : List (State → State)) (s : State) (port : SourcePort) : Prop :=
  let queue := fun t : State => { t with port := t.port.enqueueAll records }
  ∃ k ≤ acts.length, port = (actAll (acts.take k ++ queue :: acts.drop k) s).port

/-- The controller after a mark: at the reservation field (R55). -/
def busAfterMark (b : BusController) : BusController :=
  { b with field := .reservation, partDriven := BitVec.allOnes 16 }

/-! ### The return-lane words (R171) -/

/-- The code of a record kind. -/
def layoutCode : Record → Nat
  | .accepted _ => 1
  | .refused _ _ => 2
  | .settled _ _ _ _ => 3
  | .epoch _ _ _ _ => 4
  | .status _ _ => 5
  | .value _ _ => 6
  | .event _ => 7

/-- A colour in bits 23–0: R, G, B from the top (the order of R170, log 33). -/
def layoutColour (c : Colour) : Nat := 65536 * c.red.toNat + 256 * c.green.toNat + c.blue.toNat

/-- A signed quantity as 16 bits (R164). -/
def layoutSigned (m : Int) : Nat := (m % 65536).toNat

/-- A summary byte: presence in bit 4, reported state in bits 3–2, verdict in bits 1–0. -/
def layoutSummary (s : Summary) : Nat :=
  (match s.presence with
    | .present => 16
    | .absent => 0) +
  (match s.reported with
    | none => 0
    | some .joining => 4
    | some .inStep => 8
    | some .diverged => 12) +
  (match s.verdict with
    | .none => 0
    | .matching => 1
    | .mismatch => 2)

/-- The word of four summaries, from index `k`, the lowest rank in bits 31–24. -/
def layoutSummaries (k : Nat) (l : List Summary) : Nat :=
  let byte := fun i : Nat => l[k + i]?.elim 0 layoutSummary
  16777216 * byte 0 + 65536 * byte 1 + 256 * byte 2 + byte 3

/-- The field words of an EVENT record: the kind, and the argument if it has one. -/
def layoutEvent : Event → List Nat
  | .configFault .noRecord => [0x01, 1]
  | .configFault .badCheck => [0x01, 2]
  | .configFault .range => [0x01, 3]
  | .founded => [0x02]
  | .joined => [0x03]
  | .selfPromoted => [0x04]
  | .diverged .receiveError => [0x05, 1]
  | .diverged .auditMismatch => [0x05, 2]
  | .muted .repeatedAbort => [0x06, 1]
  | .muted .duplicateRank => [0x06, 2]
  | .peerFound r => [0x07, r.toNat]
  | .peerLost r => [0x08, r.toNat]
  | .epochSlip old new => [0x09, 65536 * old.toNat + new.toNat]
  | .timingJump m => [0x0A, layoutSigned m]
  | .tornApply e => [0x0B, e.toNat]
  | .auditLate e => [0x0C, e.toNat]
  | .sourceShort line => [0x0D, line]
  | .sourceLong line => [0x0E, line]

/-- The field words of the value in a VALUE record; in the words of a row the lowest column is in the top bits, and a
visibility is 0 HIDDEN or 1 SHOWN (as in R168 and R170: DEDUCED, log 33). -/
def layoutValue : Item → List Nat
  | .setSlot _ c => [layoutColour c]
  | .setRow _ codes => [codes.toNat / 4294967296, codes.toNat % 4294967296]
  | .setPosition p => [65536 * p.x.toNat + p.y.toNat]
  | .setVisibility .hidden => [0]
  | .setVisibility .shown => [1]

/-- The field words of a record, from the tables of R171. -/
def layoutFields : Record → List Nat
  | .accepted tag => [tag.toNat]
  | .refused tag .malformed => [tag.toNat + 256]
  | .refused tag .notActive => [tag.toNat + 512]
  | .refused tag .range => [tag.toNat + 768]
  | .refused tag .queueFull => [tag.toNat + 1024]
  | .settled tag posted removed none => [tag.toNat + 256 * posted + 4096 * removed, 0]
  | .settled tag posted removed (some e) => [tag.toNat + 256 * posted + 4096 * removed + 65536, e.toNat]
  | .epoch e written torn offset =>
    [e.toNat + 65536 * written + (if torn then 2147483648 else 0), layoutSigned offset]
  | .status tag f =>
    let state := match f.state with
      | .configuring => 0
      | .configFault => 1
      | .listening => 2
      | .joining => 3
      | .inStep => 4
      | .diverged => 5
      | .muted => 6
    [ tag.toNat + 256 * state + (f.rank.elim 0 fun r => 65536 * r.toNat + 1048576) +
        (if f.suspect then 16777216 else 0) + (if f.requester then 33554432 else 0) +
        (if f.epoch.isSome then 67108864 else 0) + (if f.lastOffset.isSome then 134217728 else 0),
      f.epoch.elim 0 BitVec.toNat + 65536 * f.lastOffset.elim 0 layoutSigned,
      f.occupancy + 256 * f.inFlight + 65536 * f.receivedBlocks + 16777216 * f.cursor,
      layoutSummaries 0 f.membership, layoutSummaries 4 f.membership, layoutSummaries 8 f.membership,
      layoutSummaries 12 f.membership ]
  | .value tag item => (tag.toNat + 65536 * item.target.number) :: layoutValue item
  | .event e => layoutEvent e

/-- The counts and lines of a record fit the bits R171 gives them. -/
def FitsTheLayout : Record → Prop
  | .settled _ posted removed _ => posted ≤ 15 ∧ removed ≤ 15
  | .epoch _ written _ _ => written ≤ 511
  | .status _ f =>
    f.occupancy ≤ 63 ∧ f.inFlight ≤ 7 ∧ f.receivedBlocks ≤ 127 ∧ f.cursor ≤ 127 ∧ f.membership.length = 16
  | .event (.sourceShort line) => line ≤ 4095
  | .event (.sourceLong line) => line ≤ 4095
  | .accepted _ | .refused _ _ | .value _ _ | .event _ => True

/-- The colour of pixel `u` of the line in progress as R160 and R161 compose it. -/
def composedPixel (s : State) (c : Settings) (u : Nat) : Colour :=
  let w := s.store.wall
  let slot := fun n : Nat => w.slots.toList.getD n black
  let X := c.originX + u
  let Y := c.originY + s.timer.line
  let px := w.position.x.toNat
  let py := w.position.y.toNat
  let covered := w.visibility = .shown && px ≤ X && X ≤ px + 31 && X ≤ 32767 && py ≤ Y && Y ≤ py + 31 && Y ≤ 32767
  let code := if covered then (w.rows.toList.getD (Y - py) 0).toNat / 4 ^ (31 - (X - px)) % 4 else 0
  if code ≠ 0 then slot (256 + code)
  else
    match s.pixel.shown[u]? with
    | none => slot 256
    | some (.index i) => slot i.toNat
    | some (.direct overlay colour) => if overlay = 0 then colour else slot overlay.toNat

end Sys2Proof.Safety
end

