-- ==== Sys2Proof/Certificates/Slice0/Obligations.lean ====
section
/-! DEFINITION. The statements for the provers. Each docstring names the rules of spec/ the statement rests on; a
statement that rests on a choice of the model names the log entry. An equation `exec c s = .next t` says that the
command completes, what it changes, and, by the record update, that it changes nothing else. -/

section

open Sys2Proof Sys2Proof.Machine Sys2Proof.Safety

/-! ### The machine -/

/-- A step takes the front command and runs it on the state with the queue's rest; on an empty queue the station idles
(the queue and the idling are the model's, logs 1 and 2). -/
def Obligations.StepRunsFrontCommand : Prop :=
  (∀ (c : Instr) (rest : List Instr) (s : State),
    step { s with pending := c :: rest } = exec c { s with pending := rest }) ∧
    ∀ s : State, s.pending = [] → step s = .next s

/-- Every command answers a next state, leaves the queue of waiting commands as it is, and does the same whatever waits
(logs 1 and 7). -/
def Obligations.CommandsCompleteWhateverWaits : Prop :=
  ∀ (c : Instr) (s : State), ∃ t, exec c s = .next t ∧ t.pending = s.pending ∧
    ∀ waiting : List Instr, exec c { s with pending := waiting } = .next { t with pending := waiting }

/-! ### Lifecycle -/

/-- R124 with the reset columns of R12, R17, R32, R49, R72, R86, R93, R104, R123, R150 and R156: every block at its reset
value in one event, nothing driven and no video output. -/
def Obligations.ResetTakesResetValues : Prop :=
  ∀ s : State, ∃ t, exec .reset s = .next t ∧
    t.loader.config = none ∧ t.port.assembly = none ∧ t.port.reports = [] ∧ t.port.omitted = 0 ∧
    t.command = ⟨[], 0, false, [], false⟩ ∧
    t.bus.round = .off ∧ t.bus.belief = 15 ∧ t.bus.schedule = [] ∧ t.bus.chosen = none ∧ t.bus.aborts = 0 ∧
    t.bus.suspect = false ∧ t.bus.drive = .recessive ∧
    t.timer = ⟨false, 0, none, false, .waiting, none⟩ ∧
    (∀ slot, t.store.wall.item (.slot slot) = .setSlot slot ⟨0, 0, 0⟩) ∧
    (∀ row, t.store.wall.item (.row row) = .setRow row 0) ∧
    t.store.wall.item .position = .setPosition ⟨0, 0⟩ ∧ t.store.wall.item .visibility = .setVisibility .hidden ∧
    t.store.digest = defaultDigest ∧ t.store.opened = [] ∧ t.store.closed = none ∧ t.store.staging = false ∧
    (∀ r : Fin 16, t.members.table[r] = ⟨.absent, none, none, .none, false⟩ ∧ t.members.tally[r] = none) ∧
    t.members.window = none ∧ t.members.stage = .none ∧ t.members.record = none ∧
    (∀ b : Fin 66, t.resync.received[b] = false) ∧ t.resync.cursor = 0 ∧ t.resync.wait = 0 ∧
    t.resync.blockSeen = false ∧ t.resync.epochBlock = false ∧ t.resync.requestPending = false ∧
    t.resync.donePending = false ∧
    t.station = ⟨.configuring, 0⟩ ∧
    t.pixel = ⟨[], [], false, false⟩ ∧ ∀ u, t.videoOut u = none

/-- R166 with the layout and the permitted values of R165: the three tests in their order, on a memory that answers
nothing or `bytes`; bytes beyond 17 play no part. -/
def Obligations.RecordTestsInOrder : Prop :=
  validate none = .fault .noRecord ∧
    ∀ bytes : List Byte,
      let byte := fun i : Nat => (bytes.getD i 0).toNat
      let two := fun i : Nat => 256 * byte i + byte (i + 1)
      let ox := two 2; let oy := two 4; let W := two 6; let T := two 8; let A := two 10
      let K := byte 13; let S := byte 14; let slew := byte 15; let lock := byte 16
      validate (some bytes) =
        if bytes.length < 18 ∨ byte 0 ≠ 0xA7 then .fault .noRecord
        else if byte 17 ≠ ((List.range 17).map byte).sum % 256 then .fault .badCheck
        else if byte 1 ≤ 15 ∧ ox ≤ 32767 ∧ oy ≤ 32767 ∧ (64 ≤ W ∧ W ≤ 4096) ∧ (16 ≤ T ∧ T ≤ 4095) ∧
            (8 ≤ A ∧ A ≤ T - 8) ∧ (byte 12 = 0 ∨ byte 12 = 1) ∧
            (K = 2 ∨ K = 4 ∨ K = 8 ∨ K = 16 ∨ K = 32 ∨ K = 64) ∧ (2 * K + 2 ≤ S ∧ S ≤ 255) ∧
            (1 ≤ slew ∧ slew ≤ 8) ∧ (slew ≤ lock ∧ lock ≤ min 64 (T - A)) then
          .valid
            { rank := BitVec.ofNat 4 (byte 1), originX := ox, originY := oy, width := W, totalLines := T
              activeLines := A, format := if byte 12 = 1 then .direct else .index, auditInterval := K
              silenceLimit := S, slewLimit := slew, lockWindow := lock }
        else .fault .range

/-- R125, R126 and R33: in CONFIGURING a valid record takes effect (LISTENING, the timer RUNNING at line 0 with its frame
cue, SEEKING, a first swap without SOURCE SHORT), and one that cannot be used gives CONFIG FAULT with one record. In every
other state the read changes nothing (log 10). -/
def Obligations.ConfigurationTakesEffect : Prop :=
  ∀ (s : State) (read : Option (List Byte)),
    (∀ c, s.station.state = .configuring → validate read = .valid c →
      exec (.configurationComplete read) s = .next
        { s with
          loader := ⟨some c⟩
          station := ⟨.listening, 0⟩
          timer := { s.timer with running := true, line := 0 }
          port := { s.port with cue := some ⟨0, true⟩ }
          pixel := ⟨[], s.pixel.fill, false, false⟩
          bus := { s.bus with round := .seeking } }) ∧
      (∀ reason, s.station.state = .configuring → validate read = .fault reason →
        exec (.configurationComplete read) s = .next
          { s with
            station := { s.station with state := .configFault }
            port := s.port.enqueue (.event (.configFault reason)) }) ∧
      (s.station.state ≠ .configuring → exec (.configurationComplete read) s = .next s)

/-! ### The source port -/

/-- R157 with R138, R139, R159 and the payload of R170: a pixel word ends an incomplete command, which is refused
MALFORMED; while the timer runs it fills the next entry, or is discarded with SOURCE LONG once a frame; while the timer is
STOPPED it is discarded without a record. -/
def Obligations.PixelWordFillsOrIsDiscarded : Prop :=
  ∀ (s : State) (w : Word),
    (∀ c, s.port.assembly = none → s.loader.config = some c → s.timer.running = true →
      exec (.pixelWord w) s = .next
        (if s.pixel.fill.length < c.width then
          { s with
            pixel :=
              { s.pixel with
                fill := s.pixel.fill ++
                  [match c.format with
                    | .index => .index (BitVec.ofNat 8 w.toNat)
                    | .direct => .direct (BitVec.ofNat 8 (w.toNat / 16777216))
                        ⟨BitVec.ofNat 8 (w.toNat / 65536), BitVec.ofNat 8 (w.toNat / 256), BitVec.ofNat 8 w.toNat⟩] } }
        else if s.pixel.longFlag then s
        else
          { s with
            pixel := { s.pixel with longFlag := true }
            port := s.port.enqueue (.event (.sourceLong s.timer.line)) })) ∧
      (s.port.assembly = none → s.timer.running = false → exec (.pixelWord w) s = .next s) ∧
      ∀ a, s.port.assembly = some a →
        exec (.pixelWord w) s = exec (.pixelWord w)
          { s with
            port := (portAfterCommand s).enqueue
              (.refused (BitVec.ofNat 6 (a.head.toNat / 262144)) .malformed) }

/-- R139: a head word that announces arguments is held, and so is an argument word that is not the last; and whatever
row a command word of the forward lane arrives as, the port then holds the command that is still incomplete, or none. -/
def Obligations.CommandWordsAreAssembled : Prop :=
  (∀ (s : State) (w : Word), s.port.assembly = none → 0 < low8 w →
    exec (.commandWord w) s = .next { s with port := { s.port with assembly := some ⟨w, []⟩ } }) ∧
    (∀ (s : State) (w : Word) (a : Assembly), s.port.assembly = some a → a.args.length + 1 < low8 a.head →
      exec (.commandWord w) s = .next { s with port := { s.port with assembly := some ⟨a.head, a.args ++ [w]⟩ } }) ∧
    ∀ (s : State) (word : LaneWord), word.getLsbD 32 = true →
      ∃ t, exec (s.forwardRow word) s = .next t ∧
        t.port.assembly =
          match s.port.assembly with
          | none => if 0 < low8 (word.truncate 32) then some ⟨word.truncate 32, []⟩ else none
          | some a =>
            if a.args.length + 1 < low8 a.head then some ⟨a.head, a.args ++ [word.truncate 32]⟩ else none

/-- R140: the refusal of the first test that fails, for every kind of command and for words of no kind: one REFUSED record
with the command's tag, and no other effect. -/
def Obligations.RefusalsInOrder : Prop :=
  ∀ (s : State) (payload : Word) (kind : Byte) (tag : Tag) (args : List Word) (reason : RefusalReason),
    Completes s payload kind tag args → refusal s kind.toNat args = some reason →
    exec (commandRow kind.toNat payload) s = .next
      { s with port := (portAfterCommand s).enqueue (.refused tag reason) }

/-- R142 to R145 with R73: an item-making command that no test refuses queues its items at the tail with one account, and
ACCEPTED. -/
def Obligations.ItemCommandsAreAccepted : Prop :=
  ∀ (s : State) (payload : Word) (tag : Tag) (args : List Word),
    let accepted := fun items : List Item =>
      (.next
        { s with
          command :=
            { s.command with
              queue := s.command.queue ++ items.map fun i => ⟨i, tag⟩
              accounts := s.command.accounts ++ [⟨tag, items.length, 0, 0, none⟩] }
          port := (portAfterCommand s).enqueue (.accepted tag) } : Host.Outcome State Fault Refusal)
    (∀ items : List Item, Completes s payload 1 tag args → refusal s 1 args = none →
      items.length = low8 (args.headD 0) →
      (∀ (k : Nat) (colour : Word), args[k + 1]? = some colour →
        ∃ h : high16 (args.headD 0) + k < 260, items[k]? = some (.setSlot ⟨high16 (args.headD 0) + k, h⟩
          ⟨BitVec.ofNat 8 (colour.toNat / 65536), BitVec.ofNat 8 (colour.toNat / 256), BitVec.ofNat 8 colour.toNat⟩)) →
      exec (.setColors payload) s = accepted items) ∧
      (∀ (w high low : Word) (h : low8 w < 32), args = [w, high, low] → Completes s payload 2 tag args →
        refusal s 2 args = none →
        exec (.setPointerRow payload) s = accepted [.setRow ⟨low8 w, h⟩ (high ++ low)]) ∧
      (∀ w : Word, args = [w] → Completes s payload 3 tag args → refusal s 3 args = none →
        exec (.movePointer payload) s =
          accepted [.setPosition ⟨BitVec.ofNat 15 (high16 w), BitVec.ofNat 15 (low16 w)⟩]) ∧
      (∀ w : Word, args = [w] → Completes s payload 4 tag args → refusal s 4 args = none →
        exec (.pointerVisibility payload) s =
          accepted [.setVisibility (if low8 w = 0 then .hidden else .shown)])

/-- R81: WITHDRAW, taken in every station state. What each account loses is `removeBehind`, which
`AccountsShareTheItems` describes. -/
def Obligations.WithdrawRemovesTheRest : Prop :=
  ∀ (s : State) (payload : Word) (tag : Tag), Completes s payload 5 tag [] →
    let accounts := removeBehind s.command.inFlight s.command.accounts
    exec (.withdraw payload) s = .next
      { s with
        command :=
          { s.command with
            queue := s.command.queue.take s.command.inFlight
            withdrawMark := s.command.withdrawMark || s.command.inFlight ≠ 0
            accounts := accounts.filter fun a => a.remaining ≠ 0 }
        port := ((portAfterCommand s).enqueue (.accepted tag)).enqueueAll
          ((accounts.filter fun a => a.remaining = 0).map fun a => .settled a.tag a.posted a.removed a.lastPosting) }

/-- R72, R78 to R81: items leave in queue order, so an account's share of the oldest `n` items is what is left of `n`
after the accounts before it, up to the items it still has; a posting of none of its items leaves its last-posting epoch.
That accounts and items correspond by position is log 18. -/
def Obligations.AccountsShareTheItems : Prop :=
  ∀ (accounts : List Account) (n : Nat) (epoch : Option Epoch),
    (postOldest epoch n accounts).length = accounts.length ∧ (removeOldest n accounts).length = accounts.length ∧
      (removeBehind n accounts).length = accounts.length ∧
      ∀ (i : Nat) (a : Account), accounts[i]? = some a →
        let share := min a.remaining (n - itemsAhead accounts i)
        (postOldest epoch n accounts)[i]? =
            some { a with posted := a.posted + share, lastPosting := if share = 0 then a.lastPosting else epoch } ∧
          (removeOldest n accounts)[i]? = some { a with removed := a.removed + share } ∧
          (removeBehind n accounts)[i]? = some { a with removed := a.removed + (a.remaining - share) }

/-- R147 and R15: READ TARGET, taken in every station state, queues the target's present value of the wall state, and is
refused RANGE for a number above 293. -/
def Obligations.ReadTargetAnswersTheValue : Prop :=
  ∀ (s : State) (payload : Word) (tag : Tag) (w : Word), Completes s payload 6 tag [w] →
    (∀ target : Target, low16 w = target.number →
      exec (.readTarget payload) s = .next
        { s with port := (portAfterCommand s).enqueue (.value tag (s.store.wall.item target)) }) ∧
      (293 < low16 w →
        exec (.readTarget payload) s = .next { s with port := (portAfterCommand s).enqueue (.refused tag .range) })

/-- R148: STATUS, taken in every station state, queues one record with every field of the table as it stands. -/
def Obligations.StatusReportsEveryField : Prop :=
  ∀ (s : State) (payload : Word) (tag : Tag), Completes s payload 7 tag [] →
    exec (.status payload) s = .next
      { s with
        port := (portAfterCommand s).enqueue (.status tag
          { state := s.station.state
            rank := s.loader.config.map Settings.rank
            epoch := s.timer.epoch
            lastOffset := s.timer.lastOffset
            occupancy := s.command.queue.length
            inFlight := s.command.inFlight
            suspect := s.bus.suspect
            requester :=
              match s.loader.config with
              | some c => s.members.table[c.rank.toNat].requester
              | none => false
            receivedBlocks := ((List.finRange 66).filter fun b => s.resync.received[b]).length
            cursor := s.resync.cursor.val
            membership := (List.finRange 16).map fun r =>
              ⟨s.members.table[r].presence, s.members.table[r].reported, s.members.table[r].verdict⟩ }) }

/-- R134, R149, R57, R65: the eight effects of a REJOIN that is taken, in one event, and everything it keeps; within a
field the part already driven stays driven (how much is free, and the choice is counted, log 29); in CONFIGURING and
CONFIG FAULT it is refused NOT ACTIVE and changes nothing else, also where a reset came with it (log 31). -/
def Obligations.RejoinRestartsTheStation : Prop :=
  ∀ (s : State) (payload : Word) (tag : Tag), Completes s payload 8 tag [] →
    (s.station.state = .configuring ∨ s.station.state = .configFault →
      exec (.rejoin payload) s = .next { s with port := (portAfterCommand s).enqueue (.refused tag .notActive) }) ∧
      (s.station.state ≠ .configuring → s.station.state ≠ .configFault →
        ∃ part, DrivenPart s part ∧ exec (.rejoin payload) s = .next
          { s with
            port := ((portAfterCommand s).enqueue (.accepted tag)).enqueueAll
              (s.command.accounts.map fun a =>
                .settled a.tag a.posted (a.removed + (a.made - a.posted - a.removed)) a.lastPosting)
            bus :=
              { s.bus with
                chosen := none
                driving := false
                aborts := 0
                suspect := false
                drive := match s.bus.drive with
                  | .message _ | .abortPattern => .abortPattern
                  | .recessive | .startPulse | .reservationBit => .recessive
                partDriven := part }
            command := ⟨[], 0, false, [], false⟩
            store := ⟨defaultWall, defaultDigest, [], none, false⟩
            members :=
              ⟨Vector.replicate 16 ⟨.absent, none, none, .none, false⟩, none, .none, none, Vector.replicate 16 none⟩
            resync := ⟨Vector.replicate 66 false, 0, 0, false, false, false, false⟩
            timer := { s.timer with epoch := none, markPending := false }
            station := ⟨.listening, 0⟩
            choices := s.choices + if Drives s ∧ s.bus.round = .fields then 1 else 0 })

/-- R150, R151, R152: a record goes to the tail with the omitted count as its stamp, which becomes 0; a full queue of 16
takes none and the count rises by 1, up to 255; several records are tested one by one; the head record leaves the queue
when its last word has gone, and its words are those of R171; with an empty queue the lane has nothing to finish
(log 10). -/
def Obligations.RecordsAreQueuedOmittedAndSent : Prop :=
  (∀ (p : SourcePort) (r : Record) (rest : List Record),
    (p.reports.length < 16 → p.enqueue r = { p with reports := p.reports ++ [⟨r, p.omitted⟩], omitted := 0 }) ∧
      (p.reports.length = 16 → p.omitted < 255 → p.enqueue r = { p with omitted := p.omitted + 1 }) ∧
      (p.reports.length = 16 → p.omitted = 255 → p.enqueue r = p) ∧
      p.enqueueAll [] = p ∧ p.enqueueAll (r :: rest) = (p.enqueue r).enqueueAll rest) ∧
    ∀ s : State,
      (∀ r rest, s.port.reports = r :: rest →
        exec .recordSent s = .next { s with port := { s.port with reports := rest, sentWords := r.words } }) ∧
        (s.port.reports = [] → exec .recordSent s = .next s)

/-- R171: a record is a head word (the kind code in bits 31–24, the stamp in bits 23–16, the number of field words in bits
7–0) and the field words of its kind, all with marker 1; a line cue is one word with marker 0, the line in bits 11–0 and
ACTIVE in bit 12. The order of the bits inside a colour and a row of a VALUE record, and the code of its visibility,
are those of R168 and R170: the model's deduction (log 33). -/
def Obligations.RecordWordsFollowTheLayout : Prop :=
  (∀ r : Stamped, r.omitted ≤ 255 → FitsTheLayout r.record →
    let fields := layoutFields r.record
    let head := 16777216 * layoutCode r.record + 65536 * r.omitted + fields.length
    fields.length ≤ 7 ∧ r.words = (head :: fields).map fun word => BitVec.ofNat 33 (4294967296 + word)) ∧
    ∀ (line : Nat) (active : Bool), line ≤ 4095 →
      (⟨line, active⟩ : Cue).word = BitVec.ofNat 33 (line + if active then 4096 else 0)

/-- R151 ("the event that queued it takes its other effects all the same"): two stations that differ in the report queue,
the omitted count and the words and cues that went out, and in nothing else, still differ in nothing else after any
command. -/
def Obligations.ReportsDecideNothing : Prop :=
  ∀ (c : Instr) (s t t' : State) (port : SourcePort), port.assembly = s.port.assembly →
    exec c s = .next t → exec c { s with port := port } = .next t' →
    t'.port.assembly = t.port.assembly ∧ { t' with port := t.port } = t

/-! ### Lines and frames -/

/-- R34, R35, R158, R159: a line begins by counting, with its cue and the swap or discard of the pixel path. With a closed
generation PENDING, the blank start is `BlankStartAppliesTheGeneration`. The last line ends by a natural frame end, and a
STOPPED timer begins no line (log 10). -/
def Obligations.LinesBeginByCounting : Prop :=
  ∀ (s : State) (c : Settings), s.loader.config = some c →
    (s.timer.running = true → s.timer.line + 1 < c.totalLines →
      (s.timer.line + 1 = c.activeLines → s.store.closed = none) →
      exec .lineStart s = .next
        { s with
          timer := { s.timer with line := s.timer.line + 1 }
          port := portAtLineStart s c (s.timer.line + 1)
          pixel := pixelAtLineStart c (s.timer.line + 1) s.pixel }) ∧
      (s.timer.running = true → s.timer.line + 1 = c.totalLines → exec .lineStart s = .next s) ∧
      (s.timer.running = false → exec .lineStart s = .next s)

/-- R24, R25, R26, R10, R95: at the start of line A a PENDING generation is applied: every target with an entry takes the
entry's value and no other changes, the digest follows, the generation is EMPTY, and one EPOCH record with torn clear is
queued, before or after the line's own records, as R150 lets them (the choice is counted, log 8); an own audit that waited
for this apply is built from the digest it left, or is a heartbeat if the station became DIVERGED while it waited. -/
def Obligations.BlankStartAppliesTheGeneration : Prop :=
  ∀ (s : State) (c : Settings) (g : ClosedGeneration),
    s.loader.config = some c → s.timer.running = true → s.timer.line + 1 < c.totalLines →
    s.timer.line + 1 = c.activeLines → s.store.closed = some g → CanonicalGeneration g.items → DigestFollowsWall s →
    let lineRecords := pixelRecords c (s.timer.line + 1) s.timer.line s.pixel
    let applied := [Record.epoch g.epoch g.items.length false g.offset]
    ∃ (wall : WallState) (port : SourcePort), WritesEntries s.store.wall wall g.items ∧
      QueuedInEitherOrder (cuedPort s c (s.timer.line + 1)) lineRecords applied port ∧
      exec .lineStart s = .next
        { s with
          timer := { s.timer with line := s.timer.line + 1 }
          store := { s.store with wall := wall, digest := wall.digest, closed := none }
          port := port
          choices := s.choices + choicesFor lineRecords applied
          pixel := pixelAtLineStart c (s.timer.line + 1) s.pixel
          members := membersAfterApply s.members wall.digest }

/-- R36 and R127: at a natural frame end line 0 begins, the frame phase and mark pending move by the table, and a LISTENING
station counts it; the count that reaches S is `FoundingTakesEpochZero`. -/
def Obligations.FrameEndsMoveThePhase : Prop :=
  ∀ (s : State) (c : Settings), s.loader.config = some c → s.timer.running = true →
    s.timer.line + 1 = c.totalLines →
    (s.station.state = .listening → s.station.listenCount + 1 < c.silenceLimit) →
    exec .naturalFrameEnd s = .next
      { s with
        timer :=
          { s.timer with
            line := 0
            phase := if s.timer.phase = .covered then .waiting else .ended
            markPending := s.timer.markPending || (s.timer.phase ≠ .covered && s.active) }
        port := portAtLineStart s c 0
        pixel := pixelAtLineStart c 0 s.pixel
        station :=
          if s.station.state = .listening then { s.station with listenCount := s.station.listenCount + 1 }
          else s.station }

/-- R129, R47, R18: the natural frame end that brings the listen count to S founds a wall. The model's own: mark pending is
set in phase COVERED too (log 22), the resync unit keeps what a BLOCK heard before set in it (log 30), and FOUNDED and the
record of the line that begins stand in either order, as R150 lets them (the choice is counted, log 8). -/
def Obligations.FoundingTakesEpochZero : Prop :=
  ∀ (s : State) (c : Settings), s.loader.config = some c → s.timer.running = true →
    s.timer.line + 1 = c.totalLines → s.station.state = .listening → s.station.listenCount + 1 = c.silenceLimit →
    let lineRecords := pixelRecords c 0 s.timer.line s.pixel
    ∃ port : SourcePort, QueuedInEitherOrder (cuedPort s c 0) lineRecords [.event .founded] port ∧
      exec .naturalFrameEnd s = .next
        { s with
          timer :=
            { s.timer with
              line := 0
              epoch := some 0
              markPending := true
              phase := if s.timer.phase = .covered then .waiting else .ended }
          port := port
          choices := s.choices + choicesFor lineRecords [.event .founded]
          pixel := pixelAtLineStart c 0 s.pixel
          station := ⟨.inStep, 0⟩
          store := { s.store with opened := [], staging := true }
          members := withOwnEntry s inStepEntry }

/-! ### Rounds -/

/-- R51, R52, R57: the gaps, a dominant level, the start pulse and the driving of it, by the round state. A start pulse
inside a slot damages its message (log 17); an event that does not concern the round state changes nothing (log 10). -/
def Obligations.GapsAndPulsesMoveTheRound : Prop :=
  ∀ s : State,
    (exec .seekGap s = .next
      (if s.bus.round = .seeking then { s with bus := { s.bus with round := .idle, recessive := .seekGap } } else s)) ∧
      (s.bus.round = .gap →
        exec .idleGap s = .next { s with bus := { s.bus with round := .idle, recessive := .idleGap } }) ∧
      (s.bus.round = .idle →
        exec .idleGap s = .next
          { s with
            bus := { s.bus with recessive := if s.bus.recessive = .below then .idleGap else s.bus.recessive } }) ∧
      (s.bus.round ≠ .gap → s.bus.round ≠ .idle → exec .idleGap s = .next s) ∧
      (exec .dominantLevel s = .next
        (if s.bus.round = .seeking ∨ s.bus.round = .gap ∨ s.bus.round = .idle then
          { s with bus := { s.bus with recessive := .below } }
        else s)) ∧
      (s.bus.round = .seeking ∨ s.bus.round = .gap ∨ s.bus.round = .idle →
        exec .startPulse s = .next
          { s with
            bus :=
              { s.bus with
                round := .fields, field := .origin, schedule := [], slot := 0, driving := s.active
                slotDamaged := false, drive := .recessive, partDriven := BitVec.allOnes 16, recessive := .below } }) ∧
      (s.bus.round = .fields → exec .startPulse s = exec .fieldFault s) ∧
      (s.bus.round = .data → exec .startPulse s = .next { s with bus := { s.bus with slotDamaged := true } }) ∧
      (exec .driveStartPulse s = .next
        (if s.active ∧ s.bus.round = .idle ∧ (s.timer.markPending ∨ selection s ≠ none) then
          { s with bus := { s.bus with drive := .startPulse } }
        else s))

/-- R53, R54, R57: every station that samples the origin field takes the wired AND of what the others put on it and what it
drives itself, or drove before it stopped; and the mark slot is dominant if the others or this station drive it so. The part
driven before a REJOIN, and that the mark slot is driven and sampled in one event, are the model's choice (log 29). -/
def Obligations.FieldsAreWiredAnds : Prop :=
  ∀ s : State, s.bus.round = .fields →
    (∀ others : BitVec 4, s.bus.field = .origin →
      exec (.originField others) s = .next
        { s with
          bus :=
            { s.bus with
              belief := others &&& if s.active && s.bus.driving then s.bus.belief else s.bus.partDriven.setWidth 4
              field := .markSlot
              partDriven := BitVec.allOnes 16 } }) ∧
      ∀ others : Level, s.bus.field = .markSlot →
        exec (.markSlot others) s = .next
          { s with
            bus :=
              { s.bus with
                field :=
                  if others = .dominant ∨ s.active ∧ s.bus.driving ∧ s.timer.markPending then .epoch
                  else .reservation } }

/-- R74 and R75 with R56 and R77: the first candidate of the table whose condition holds is chosen; choosing UPDATE takes
the in-flight batch and clears the last-was-BLOCK flag, choosing BLOCK sets it; a station that does not drive in the round
chooses nothing. This holds for a RESYNC REQUEST that an audit mismatch made pending at this round's mark too: that it is
the next round the station takes part in (R107) is the model's deduction (log 34). -/
def Obligations.SendSelectionTakesTheFirstCandidate : Prop :=
  ∀ s : State, s.bus.round = .fields → s.bus.field = .reservation →
    (Drives s →
      exec .sendSelection s = .next
        (match selection s with
        | none => { s with bus := { s.bus with field := .selected } }
        | some kind =>
          { s with
            bus := { s.bus with field := .selected, chosen := some kind, drive := .reservationBit }
            command :=
              match kind with
              | .update => { s.command with inFlight := min 4 s.command.queue.length, lastWasBlock := false }
              | .block => { s.command with lastWasBlock := true }
              | .audit | .resyncRequest | .resyncDone => s.command })) ∧
      (¬Drives s → exec .sendSelection s = .next s)

/-- R56, R57, R65: the schedule holds exactly the ranks whose bits are dominant, each once, ordered by (rank - origin)
modulo 16, the own one too if its bit was driven before a REJOIN; with an empty one the station takes GAP, else DATA, and no
belief changes. -/
def Obligations.ReservationsMakeTheSchedule : Prop :=
  (∀ (origin : Rank) (field : BitVec 16),
    (∀ r : Rank, r ∈ scheduleOf origin field ↔ field.getLsbD r.toNat = false) ∧
      (scheduleOf origin field).Pairwise fun a b => (a - origin).toNat < (b - origin).toNat) ∧
    ∀ (s : State) (others own : BitVec 16), s.bus.round = .fields →
      s.bus.field = .reservation ∨ s.bus.field = .selected →
      (∀ r : Rank, own.getLsbD r.toNat = ownReservation s r) →
      exec (.reservationField others) s = .next
        { s with
          bus :=
            if scheduleOf s.bus.belief (others &&& own) = [] then
              { s.bus with
                round := .gap, schedule := [], slot := 0, field := .origin, driving := false, slotDamaged := false
                drive := .recessive, partDriven := BitVec.allOnes 16, recessive := .below }
            else
              { s.bus with
                round := .data, schedule := scheduleOf s.bus.belief (others &&& own), slot := 0, field := .origin
                slotDamaged := false, drive := .recessive, partDriven := BitVec.allOnes 16 } }

/-- R68, R67, R79, R150: a code violation in the fields is a receive error; the station drops out of the round to SEEKING with
its belief, its chosen message is ABORTED, and the consecutive-abort count is unchanged. DIVERGED and the SETTLED records
of a batch stand in either order, as R150 lets them (the choice is counted, log 8). -/
def Obligations.FieldFaultsDropOut : Prop :=
  ∀ s : State, s.bus.round = .fields →
    let diverged := if s.station.state = .inStep then [Record.event (.diverged .receiveError)] else []
    let settled := if s.bus.chosen = some .update then s.command.batchAborted.2 else []
    ∃ port : SourcePort, QueuedInEitherOrder s.port diverged settled port ∧
      exec .fieldFault s = .next
        { afterReceiveError s with
          bus := outsideRound (afterReceiveError s).bus .seeking
          command := if s.bus.chosen = some .update then s.command.batchAborted.1 else s.command
          port := port
          choices := s.choices + choicesFor diverged settled }

/-! ### Slots -/

/-- R59, R76, R96, R111, R14: an active station that holds a chosen message transmits it at the opening of its own slot,
with the state and epoch of that moment and the body its kind takes from the owning block; one that holds none leaves the
slot vacant. -/
def Obligations.TransmissionBuildsTheMessage : Prop :=
  ∀ (s : State) (r : Rank), s.bus.round = .data → s.bus.schedule[s.bus.slot]? = some r →
    s.loader.config.map Settings.rank = some r →
    (∀ (kind : MessageKind) (state : Reported) (epoch : Epoch) (body : Body),
      Drives s → s.bus.drive = .recessive → s.bus.chosen = some kind → s.station.state.reported = some state →
      s.timer.epoch = some epoch → BodyFor s kind epoch body →
      exec .transmit s = .next { s with bus := { s.bus with drive := .message ⟨r, state, epoch, body⟩ } }) ∧
      (s.bus.chosen = none → exec .transmit s = .next s)

/-- R78, R79, R64, R59: what each outcome does to a batch. -/
def Obligations.OutcomesSettleTheBatch : Prop :=
  ∀ (u : CommandUnit) (epoch : Option Epoch),
    let posted := postOldest epoch u.inFlight u.accounts
    let removed := removeOldest u.inFlight u.accounts
    let settle := fun accounts : List Account =>
      (accounts.filter fun a => a.remaining = 0).map fun a =>
        Record.settled a.tag a.posted a.removed a.lastPosting
    u.batchClean epoch =
        ({ u with queue := u.queue.drop u.inFlight, inFlight := 0, withdrawMark := false
                  accounts := posted.filter fun a => a.remaining ≠ 0 }, settle posted) ∧
      (u.withdrawMark = false → u.batchAborted = ({ u with inFlight := 0 }, [])) ∧
      (u.withdrawMark = true → u.batchAborted =
        ({ u with queue := u.queue.drop u.inFlight, inFlight := 0, withdrawMark := false
                  accounts := removed.filter fun a => a.remaining ≠ 0 }, settle removed))

/-- R63, R59, R77, R64, R79, R132: at a readback mismatch the station drives the abort pattern; when its slot ends with
that pattern the outcome ABORTED is handed to the owner, the count rises, and the eighth in a row then mutes the
station. That the outcome, the count and the muting come with the slot's end, and not with the mismatch, is the
model's deduction (log 21), and so is that a MESSAGE_RECEIVED ends such a slot in the same way, whatever was read (log
35). A station that transmits nothing reads no mismatch (log 10). -/
def Obligations.ReadbackMismatchAborts : Prop :=
  ∀ s : State,
    (s.bus.drive.transmitting ≠ none →
      exec .readbackMismatch s = .next { s with bus := { s.bus with drive := .abortPattern } }) ∧
      (s.bus.drive.transmitting = none → exec .readbackMismatch s = .next s) ∧
      ∀ c : Instr, c = .messageAborted ∨ c = .slotVacant ∨ (∃ read, c = .messageReceived read) →
        s.bus.round = .data → s.bus.drive = .abortPattern → s.bus.chosen ≠ none → s.bus.schedule[s.bus.slot]?.isSome →
        s.bus.schedule[s.bus.slot]? = s.loader.config.map Settings.rank →
        let aborted :=
          { s with
            bus := { s.bus with chosen := none, aborts := s.bus.aborts + 1 }
            command := if s.bus.chosen = some .update then s.command.batchAborted.1 else s.command
            port := if s.bus.chosen = some .update then s.port.enqueueAll s.command.batchAborted.2 else s.port }
        let ended :=
          if s.bus.aborts + 1 < 8 ∨ s.station.state = .muted then aborted else mutedState aborted .repeatedAbort
        exec c s = .next { ended with bus := busAfterSlot ended.bus }

/-- R58, R60, R62: a vacant slot and an aborted message change nothing but the move to the next slot or the round end.
A station that still holds a chosen message at the end of its own slot, and drives no abort pattern over it, gives it
back (log 15; over the abort pattern, `ReadbackMismatchAborts`); outside the data phase there is no slot (log 10). A
MESSAGE_RECEIVED in a slot that ends with this station's abort pattern, as after a REJOIN or a muting, is discarded in
the same way: the model's deduction from R62 and R65 (log 35). -/
def Obligations.SlotsEndInOrder : Prop :=
  (∀ (s : State) (c : Instr), c = .slotVacant ∨ c = .messageAborted →
    (s.bus.round = .data →
      s.bus.chosen = none ∨ s.bus.schedule[s.bus.slot]? ≠ s.loader.config.map Settings.rank →
      exec c s = .next { s with bus := busAfterSlot s.bus }) ∧
      (s.bus.round = .data → s.bus.chosen ≠ none → s.bus.schedule[s.bus.slot]?.isSome →
        s.bus.schedule[s.bus.slot]? = s.loader.config.map Settings.rank → s.bus.drive ≠ .abortPattern →
        exec c s = .next
          { s with
            bus := busAfterSlot { s.bus with chosen := none }
            command := if s.bus.chosen = some .update then s.command.batchAborted.1 else s.command
            port := if s.bus.chosen = some .update then s.port.enqueueAll s.command.batchAborted.2 else s.port }) ∧
      (s.bus.round ≠ .data → exec c s = .next s)) ∧
    ∀ (s : State) (read : Option (List Byte)),
      s.bus.round = .data → s.bus.drive = .abortPattern → s.bus.schedule[s.bus.slot]?.isSome →
      s.bus.chosen = none ∨ s.bus.schedule[s.bus.slot]? ≠ s.loader.config.map Settings.rank →
      exec (.messageReceived read) s = .next { s with bus := busAfterSlot s.bus }

/-- R66, R67, R58: a message that is no valid message of the scheduled rank acts by the station state, and the station
keeps its place in the round. (Over the own abort pattern: `SlotsEndInOrder`.) -/
def Obligations.ReceiveErrorsActByState : Prop :=
  ∀ (s : State) (r : Rank) (read : Option (List Byte)),
    s.bus.round = .data → s.bus.schedule[s.bus.slot]? = some r → s.bus.drive.transmitting = none →
    s.bus.drive ≠ .abortPattern → classify r (if s.bus.slotDamaged then none else read) = none →
    s.bus.chosen = none ∨ s.loader.config.map Settings.rank ≠ some r →
    exec (.messageReceived read) s = .next
      { afterReceiveError s with bus := busAfterSlot (afterReceiveError s).bus }

/-- R132, R80, R120, R87, R37: what muting does, in one event, with the MUTED record first; a station already MUTED stays
so and queues nothing. That a station muted from LISTENING keeps its listen count is the model's choice (log 24). -/
def Obligations.MutingTakesEveryEffect : Prop :=
  ∀ (s : State) (cause : MuteCause),
    (s.station.state ≠ .muted → s.mute cause = mutedState s cause) ∧ (s.station.state = .muted → s.mute cause = s)

/-- R70, R69, R20, R59, R64: a valid message is handed on header first, then body; one that carries the own rank and was
not transmitted here mutes the station and its header is not taken; the station's own clean message is taken in the same
way, with the count 0 and the outcome CLEAN for its owner. What the body of a message with the own rank does at a station
that did not transmit it is marked in log 27. -/
def Obligations.ValidMessagesAreHandedOn : Prop :=
  ∀ (s : State) (m : Message) (read : Option (List Byte)),
    (HearsValid s m read →
      exec (.messageReceived read) s = .next { (s.takeHeader m).takeBody m with bus := busAfterSlot s.bus }) ∧
      (s.bus.round = .data → s.bus.schedule[s.bus.slot]? = some m.rank → s.bus.drive.transmitting = none →
        s.bus.drive ≠ .abortPattern → s.bus.slotDamaged = false → classify m.rank read = some m →
        s.loader.config.map Settings.rank = some m.rank → (s.station.state = .muted → s.bus.chosen = none) →
        exec (.messageReceived read) s = .next
          { (s.mute .duplicateRank).takeBody m with bus := busAfterSlot (s.mute .duplicateRank).bus }) ∧
      (s.bus.round = .data → s.bus.schedule[s.bus.slot]? = some m.rank → s.bus.drive.transmitting = some m →
        exec (.messageReceived read) s = .next
          { ((s.takeHeader m).takeBody m).outcomeClean m.body.kind with
            bus := busAfterSlot { s.bus with chosen := none, aborts := 0 } })

/-! ### What the owners do with a valid message -/

/-- R88 and R89: a header enters its sender's entry, and no other, when the own epoch number is known. -/
def Obligations.HeadersEnterTheTable : Prop :=
  ∀ (s : State) (m : Message),
    (s.timer.epoch = none → s.takeHeader m = s) ∧
      ∀ e, s.timer.epoch = some e →
        let p := s.members.table[m.rank.toNat]
        s.takeHeader m =
          { s with
            members :=
              { s.members with
                table := s.members.table.set m.rank.toNat
                  { presence := .present
                    reported := some m.state
                    lastHeard := some e
                    verdict := if p.reported = some m.state then p.verdict else .none
                    requester := p.requester && m.state ≠ .inStep } }
            port :=
              if p.presence = .absent ∧ s.loader.config.map Settings.rank ≠ some m.rank then
                s.port.enqueue (.event (.peerFound m.rank))
              else s.port }

/-- R19, R21, R17: with the staging flag OPEN the open generation then holds, for each target, the value of the body's last
item for it, or else what it held before, still with one entry per target; with the flag CLOSED nothing is taken. -/
def Obligations.StagingKeepsTheLastItem : Prop :=
  ∀ (s : State) (m : Message) (items : List Item), m.body = .update items →
    (s.store.staging = false → s.takeBody m = s) ∧
      (s.store.staging = true → CanonicalGeneration s.store.opened →
        ∃ opened, CanonicalGeneration opened ∧
          (∀ t, entryFor opened t = (entryFor items.reverse t).or (entryFor s.store.opened t)) ∧
          s.takeBody m = { s with store := { s.store with opened := opened } })

/-- R97, R105, R106: the bodies of AUDIT, RESYNC REQUEST and RESYNC DONE. -/
def Obligations.AuditsAndRequestsAreTaken : Prop :=
  ∀ (s : State) (m : Message),
    let entry := s.members.table[m.rank.toNat]
    (∀ epoch digest, m.body = .audit epoch digest →
      s.takeBody m =
        match s.members.window, digest with
        | some w, some d =>
          if w.epoch = epoch ∧ m.state = .inStep then
            { s with members := { s.members with tally := s.members.tally.set m.rank.toNat (some d) } }
          else s
        | _, _ => s) ∧
      (m.body = .resyncRequest →
        s.takeBody m =
          if s.timer.epoch ≠ none ∧ (entry.reported = some .joining ∨ entry.reported = some .diverged) then
            { s with
              members :=
                { s.members with table := s.members.table.set m.rank.toNat { entry with requester := true } } }
          else s) ∧
      (m.body = .resyncDone →
        s.takeBody m =
          { s with
            members :=
              { s.members with table := s.members.table.set m.rank.toNat { entry with requester := false } } })

/-- R109, R113, R115, R116, R11: a valid BLOCK moves the cursor and sets both flags at every station; it is installed when
the three conditions hold, and the install that completes the set of 66 makes the station IN STEP. -/
def Obligations.BlocksAreFollowedAndInstalled : Prop :=
  ∀ (s : State) (m : Message) (b : Fin 66) (epoch : Epoch) (values : List Item),
    m.body = .block b epoch values → m.body.wellFormed = true → DigestFollowsWall s →
    let installs := (s.station.state = .joining ∨ s.station.state = .diverged) ∧
      s.members.table[m.rank.toNat].reported = some .inStep ∧ s.timer.epoch = some epoch
    let followed := { s.resync with cursor := b + 1, blockSeen := true, epochBlock := true }
    (¬installs → s.takeBody m = { s with resync := followed }) ∧
      (installs → ∃ wall : WallState, WritesEntries s.store.wall wall values ∧
        let installed :=
          { s with
            store := { s.store with wall := wall, digest := wall.digest }
            resync := { followed with received := s.resync.received.set b true } }
        s.takeBody m =
          if ∀ k : Fin 66, k = b ∨ s.resync.received[k] = true then repairedState installed .joined
          else installed)

/-- R78, R83, R84: the outcome CLEAN at the owner of each kind. -/
def Obligations.CleanOutcomesReachTheirOwners : Prop :=
  ∀ s : State,
    s.outcomeClean .update =
        { s with
          command := (s.command.batchClean s.timer.epoch).1
          port := s.port.enqueueAll (s.command.batchClean s.timer.epoch).2 } ∧
      (∀ kind, s.members.stage = .pending kind →
        s.outcomeClean .audit = { s with members := { s.members with stage := .sent kind } }) ∧
      ((∀ kind, s.members.stage ≠ .pending kind) → s.outcomeClean .audit = s) ∧
      s.outcomeClean .resyncRequest =
        { s with resync := { s.resync with requestPending := false, blockSeen := false } } ∧
      s.outcomeClean .resyncDone = { s with resync := { s.resync with donePending := false } } ∧
      s.outcomeClean .block = s

/-! ### The mark -/

/-- R38, R39, R41 to R44: at a mark the timer adopts the value the bus carried, measures its offset, and corrects: nothing
in phase ENDED, an advance within the lock window, a corrective wrap where the advance reaches T, a timing jump beyond the
lock window; a wrap or a jump begins line 0 with its cue. The controller goes on to the reservation field. -/
def Obligations.MarksCorrectTheTimer : Prop :=
  ∀ (s : State) (c : Settings) (others : Epoch), SamplesMark s c → s.timer.line < c.totalLines → 0 < c.activeLines →
    let behind := c.totalLines - s.timer.line
    let ended := s.timer.phase = .ended
    let wraps := ¬ended ∧ (c.lockWindow < behind ∨ behind ≤ c.slewLimit)
    ∃ t, exec (.mark others) s = .next t ∧
      t.timer =
        { running := true
          line := if ended then s.timer.line else if wraps then 0 else s.timer.line + c.slewLimit
          epoch := some (adoptedEpoch s others)
          markPending := false
          phase := if ended ∨ wraps then .waiting else .covered
          lastOffset := some (markOffset c s.timer.phase s.timer.line) } ∧
      t.port.cue = (if wraps then some ⟨0, true⟩ else s.port.cue) ∧
      t.pixel = (if wraps then pixelAtLineStart c 0 s.pixel else s.pixel) ∧
      t.bus = busAfterMark s.bus ∧ t.loader = s.loader ∧ t.command = s.command

/-- R40, R44: the records of the timer's part of a mark: EPOCH SLIP for a station that drove another value than the bus
carried, then TIMING JUMP (their order is log 8); and the cue of line 0, if the mark begins it. -/
def Obligations.MarksReportSlipsAndJumps : Prop :=
  ∀ (s : State) (c : Settings) (others : Epoch), SamplesMark s c → s.timer.line < c.totalLines →
    let behind := c.totalLines - s.timer.line
    let slipped :=
      match s.timer.epoch with
      | some e =>
        if Drives s ∧ e + 1 ≠ adoptedEpoch s others then
          s.port.enqueue (.event (.epochSlip e (adoptedEpoch s others)))
        else s.port
      | none => s.port
    (s.timerMark c (adoptedEpoch s others)).port =
      if s.timer.phase = .ended then slipped
      else if c.lockWindow < behind then
        { slipped.enqueue (.event (.timingJump (-(behind : Int)))) with cue := some ⟨0, 0 < c.activeLines⟩ }
      else if behind ≤ c.slewLimit then { slipped with cue := some ⟨0, 0 < c.activeLines⟩ }
      else slipped

/-- R18, R22, R23, R25 to R27, R95: the first mark opens the staging and closes nothing; every later one applies a PENDING
generation as a torn apply, with its EPOCH record and then TORN APPLY, closes the open one with the adopted epoch and the
offset, and applies it at once, with its EPOCH record, exactly if the line before the correction lay in the blank. An own
audit that waited is built by the apply that comes first. The store is left so by the whole mark. -/
def Obligations.MarksCloseTheGeneration : Prop :=
  ∀ s : State,
    CanonicalGeneration s.store.opened → (∀ g ∈ s.store.closed, CanonicalGeneration g.items) → DigestFollowsWall s →
    (∀ (c : Settings) (line : Nat) (adopted : Epoch) (offset : Int),
      (s.store.staging = false →
        s.storeMark c line adopted offset = { s with store := { s.store with opened := [], staging := true } }) ∧
      (s.store.staging = true →
        let torn :=
          match s.store.closed with
          | some g => [Record.epoch g.epoch g.items.length true g.offset, .event (.tornApply g.epoch)]
          | none => []
        let immediate :=
          if c.activeLines ≤ line then [Record.epoch adopted s.store.opened.length false offset] else []
        ∃ older newer : WallState,
          WritesEntries s.store.wall older (match s.store.closed with | some g => g.items | none => []) ∧
            WritesEntries older newer s.store.opened ∧
            s.storeMark c line adopted offset =
              { s with
                store :=
                  if c.activeLines ≤ line then
                    { wall := newer, digest := newer.digest, opened := [], closed := none, staging := true }
                  else
                    { wall := older, digest := older.digest, opened := []
                      closed := some ⟨s.store.opened, adopted, offset⟩, staging := true }
                port := (s.port.enqueueAll torn).enqueueAll immediate
                members :=
                  if s.store.closed ≠ none then membersAfterApply s.members older.digest
                  else if c.activeLines ≤ line then membersAfterApply s.members newer.digest
                  else s.members })) ∧
      ∀ (c : Settings) (others : Epoch), SamplesMark s c →
        ∃ t, exec (.mark others) s = .next t ∧ t.store = (storeAct s c others s).store

/-- R128, R94, R107, R87: the first mark round a LISTENING station samples makes it JOINING, with its entry actions, and
opens an audit window with a heartbeat if the adopted epoch is an audit epoch. A LISTENING station has its staging CLOSED
and no epoch (`EpochSound`); one that came to LISTENING by a REJOIN joins at the mark too (log 32). -/
def Obligations.TheFirstMarkMakesAListenerJoin : Prop :=
  ∀ (s : State) (c : Settings) (others : Epoch), SamplesMark s c → s.station.state = .listening → EpochSound s →
    ∃ t, exec (.mark others) s = .next t ∧
      t.station = ⟨.joining, 0⟩ ∧ t.resync = emptiedResync s.resync true false ∧
      t.members =
        if (adoptedEpoch s others).toNat % c.auditInterval = 0 then
          { withOwnEntry s (activeEntry .joining) with
            window := some ⟨adoptedEpoch s others, 0⟩, stage := .pending .heartbeat, record := none
            tally := Vector.replicate 16 none }
        else withOwnEntry s (activeEntry .joining)

/-- R90, R91, R102: the renumbering and the silence check, entry by entry, with PEER LOST records in ascending rank. -/
def Obligations.SilentPeersAreLost : Prop :=
  ∀ (s : State) (c : Settings) (old adopted : Epoch), s.loader.config = some c →
    let renumbered := { s with members := s.members.renumber s.rank? old adopted }
    let heard := fun p : Peer => if adopted = old + 1 then p else { p with lastHeard := some adopted }
    let lost := fun r : Fin 16 =>
      BitVec.ofFin r ≠ c.rank ∧ (s.members.table[r]).presence = .present ∧
        silentFor c adopted (heard s.members.table[r]) = true
    ∃ table : Vector Peer 16,
      (∀ r : Fin 16, table[r] =
        if lost r then { heard s.members.table[r] with presence := .absent, verdict := .none, requester := false }
        else if BitVec.ofFin r ≠ c.rank ∧ (s.members.table[r]).presence = .present then heard s.members.table[r]
        else s.members.table[r]) ∧
        renumbered.checkSilence c adopted =
          { s with
            members := { s.members with table := table }
            port := s.port.enqueueAll
              (((List.finRange 16).filter fun r =>
                (BitVec.ofFin r ≠ c.rank && (s.members.table[r]).presence = .present) &&
                  silentFor c adopted (heard s.members.table[r])).map fun r => .event (.peerLost (BitVec.ofFin r))) }

/-- R99 and R100: the reference digest of a tally, and the verdict of every entry after the decision. -/
def Obligations.TheMajorityDigestDecides : Prop :=
  ∀ m : Membership,
    ((∀ r : Fin 16, m.tally[r] = none) → m.decide = m) ∧
      ∀ d : Digest, IsReference m.tally d →
        ∃ table : Vector Peer 16, m.decide = { m with table := table } ∧
          ∀ r : Fin 16, table[r] =
            match m.tally[r] with
            | some held => { m.table[r] with verdict := if held = d then .matching else .mismatch }
            | none =>
              if (m.table[r]).presence = .present ∧ (m.table[r]).reported = some .inStep then
                { m.table[r] with verdict := .none }
              else m.table[r]

/-- R94, R98, R101, R102: at a mark a window closes when it is its second, or when an audit epoch finds the window open;
at an audit epoch the window for it then opens, with the stage the station state gives; another mark is counted. That the
own audit record ends at the close, and with the opening of a window, is the model's choice (log 19). -/
def Obligations.AuditWindowsOpenAndClose : Prop :=
  ∀ (s : State) (c : Settings) (adopted : Epoch),
    s.windowMark c adopted =
      match s.members.window with
      | none => if adopted.toNat % c.auditInterval = 0 then windowOpened s adopted else s
      | some w =>
        if adopted.toNat % c.auditInterval = 0 then windowOpened (windowClosed s w) adopted
        else if w.marks = 0 then { s with members := { s.members with window := some ⟨w.epoch, 1⟩ } }
        else windowClosed s w

/-- R38, R102 and R133: at a mark an IN STEP or MUTED station runs the timer, the store and the membership unit in that
order, with all their records in that order too. The records of a line 0 that the mark begins stand at one place among them,
the choice being counted (log 8). That the epoch-block flag is cleared at every mark is log 16. -/
def Obligations.MarksRunTheMembershipUnit : Prop :=
  ∀ (s : State) (c : Settings) (others : Epoch), SamplesMark s c →
    s.station.state = .inStep ∨ s.station.state = .muted →
    let acts := [timerAct s c others, storeAct s c others, memberAct s c others]
    let marked := actAll acts s
    ∃ port, QueuedAmong (begunRecords s c) acts s port ∧
      exec (.mark others) s = .next
        { marked with
          resync := { marked.resync with epochBlock := false }
          bus := busAfterMark marked.bus
          port := port
          choices := s.choices + if begunRecords s c = [] then 0 else 2 }

/-- R38, R102, R117, R118, R119: at each mark a JOINING or DIVERGED station runs the timer, the store and the membership
unit like any other, and counts the epochs without a block and without an eligible rank before the mark. Below S it keeps
the count and repeats an unanswered request at an audit epoch. At S it promotes itself, with SELF PROMOTED, before or after
the store or the membership unit, which is free (log 9), and always after the timer's records, which is the model's choice
(log 8); it has no entry in the tally (R121; `AuditSound` keeps it so). The records of a line 0 that the mark begins stand at
one place among the others (log 8). -/
def Obligations.RepairingStationsWaitAndPromote : Prop :=
  ∀ (s : State) (c : Settings) (others : Epoch), SamplesMark s c →
    s.station.state = .joining ∨ s.station.state = .diverged → s.timer.epoch ≠ none →
    let stalled := s.resync.epochBlock = false ∧ ∀ r : Fin 16, eligibleEntry s (BitVec.ofFin r) = false
    let wait := if stalled then s.resync.wait + 1 else 0
    let timer := timerAct s c others
    let store := storeAct s c others
    let members := memberAct s c others
    let promotion := fun t : State => repairedState t .selfPromoted
    (wait < c.silenceLimit →
      let marked := actAll [timer, store, members] s
      marked.station = s.station ∧
        ∃ port, QueuedAmong (begunRecords s c) [timer, store, members] s port ∧
          exec (.mark others) s = .next
            { marked with
              resync :=
                { s.resync with
                  wait := wait
                  epochBlock := false
                  requestPending := s.resync.requestPending ||
                    ((adoptedEpoch s others).toNat % c.auditInterval = 0 && !s.resync.blockSeen) }
              bus := busAfterMark marked.bus
              port := port
              choices := s.choices + if begunRecords s c = [] then 0 else 2 }) ∧
      (c.silenceLimit ≤ wait → s.members.tally[c.rank.toNat] = none →
        ∃ acts ∈ [[timer, promotion, store, members], [timer, store, promotion, members],
            [timer, store, members, promotion]],
          let marked := actAll acts s
          marked.station = { s.station with state := .inStep } ∧
            marked.resync = emptiedResync s.resync false true ∧
            (marked.members.table[c.rank.toNat]).presence = .present ∧
            (marked.members.table[c.rank.toNat]).reported = some .inStep ∧
            (marked.members.table[c.rank.toNat]).verdict = .none ∧
            (marked.members.table[c.rank.toNat]).requester = false ∧
            ∃ port, QueuedAmong (begunRecords s c) acts s port ∧
              exec (.mark others) s = .next
                { marked with bus := busAfterMark marked.bus, port := port, choices := s.choices + 2 })

/-! ### The whole machine -/

/-- R108, R14: the 66 state blocks cut the wall state: every target lies in exactly one, and a station that installs all
of them holds the sender's wall state, whatever it held. -/
def Obligations.TheBlocksCarryTheWholeWall : Prop :=
  (∀ t : Target, ∃ b : Fin 66, t ∈ blockTargets b ∧ ∀ b' : Fin 66, t ∈ blockTargets b' → b' = b) ∧
    (∀ b : Fin 66, (blockTargets b).Nodup) ∧
    ∀ sender receiver : WallState,
      (List.finRange 66).foldl (fun wall b => (sender.block b).foldl WallState.write wall) receiver = sender

/-- R10 to R12, R39, R47, R53, R60, R72, R125, R158: which commands can change the wall state, the epoch number, the
configuration, the next-origin belief, the proposal queue and the show buffer. That a batch leaves the
queue at the end of its slot, and never at READBACK_MISMATCH, is the model's deduction (log 21). -/
def Obligations.OnlyNamedCommandsWrite : Prop :=
  ∀ (c : Instr) (s t : State), exec c s = .next t → c ≠ .reset →
    (t.store.wall ≠ s.store.wall →
      c = .lineStart ∨ (∃ w, c = .rejoin w) ∨ (∃ e, c = .mark e) ∨ ∃ m, c = .messageReceived m) ∧
      (t.timer.epoch ≠ s.timer.epoch → c = .naturalFrameEnd ∨ (∃ w, c = .rejoin w) ∨ ∃ e, c = .mark e) ∧
      (t.loader ≠ s.loader → ∃ read, c = .configurationComplete read) ∧
      (t.bus.belief ≠ s.bus.belief →
        (∃ field, c = .originField field) ∨ c = .messageAborted ∨ c = .slotVacant ∨ ∃ m, c = .messageReceived m) ∧
      (t.command.queue ≠ s.command.queue →
        (∃ w, c = .setColors w ∨ c = .setPointerRow w ∨ c = .movePointer w ∨ c = .pointerVisibility w ∨
          c = .withdraw w ∨ c = .rejoin w) ∨
          c = .fieldFault ∨ c = .startPulse ∨ c = .messageAborted ∨ c = .slotVacant ∨
          ∃ m, c = .messageReceived m) ∧
      (t.pixel.shown ≠ s.pixel.shown →
        c = .lineStart ∨ c = .naturalFrameEnd ∨ (∃ e, c = .mark e) ∨ ∃ read, c = .configurationComplete read)

/-- R123 and the table of section 8.1: every change of station state is one of the table's, by one of its causes. That
MUTED (REPEATED ABORT) comes with the end of the slot, by MESSAGE_ABORTED, SLOT_VACANT or MESSAGE_RECEIVED, and not with
READBACK_MISMATCH, is the model's deduction (logs 21 and 35). -/
def Obligations.StatesChangeByTheTable : Prop :=
  ∀ (c : Instr) (s t : State), BusSound s → TimingSound s → AuditSound s → exec c s = .next t →
    t.station.state ≠ s.station.state → Transition c s.station.state t.station.state

/-- R136, R160, R161, R162, R34: no output while the timer is STOPPED, in a blank line or beyond the width; black in
LISTENING and JOINING; composed from the show buffer, the wall state and the pointer in IN STEP, DIVERGED and MUTED. -/
def Obligations.TheOutputFollowsTheState : Prop :=
  ∀ (s : State) (c : Settings) (u : Nat), s.loader.config = some c →
    (s.timer.running = false ∨ c.activeLines ≤ s.timer.line ∨ c.width ≤ u → s.videoOut u = none) ∧
      (s.timer.running = true → s.timer.line < c.activeLines → u < c.width →
        (s.station.state = .listening ∨ s.station.state = .joining → s.videoOut u = some ⟨0, 0, 0⟩) ∧
          (s.station.state = .inStep ∨ s.station.state = .diverged ∨ s.station.state = .muted →
            s.videoOut u = some (composedPixel s c u)))

/-- R61, R66, R167 to R169: every message a station can send is read back as itself by a receiver that schedules its
sender, with a body of at most 40 bytes. -/
def Obligations.MessagesReadBackAsSent : Prop :=
  ∀ m : Message, m.body.wellFormed = true →
    readMessage m.bytes = some m ∧ classify m.rank (some m.bytes) = some m ∧
      m.bytes.length = m.body.bytes.length + 7 ∧ m.body.bytes.length ≤ 40

/-- R66: what a receiver takes as valid comes from the scheduled rank, has a body of its kind's form, a body length that
counts its bytes, and a check over all bytes but the last two that equals those two; a message with a code violation in it
is never valid. -/
def Obligations.ValidMessagesPassEveryTest : Prop :=
  (∀ r : Rank, classify r none = none) ∧
    ∀ (r : Rank) (bytes : List Byte) (m : Message), classify r (some bytes) = some m →
      m.rank = r ∧ m.body.wellFormed = true ∧ 7 ≤ bytes.length ∧ bytes.length ≤ 47 ∧
        (bytes.getD 4 0).toNat + 7 = bytes.length ∧
        bytes.drop (bytes.length - 2) = twoBytes (crc16 (bytes.take (bytes.length - 2)))

/-! ### Invariants -/

/-- Every invariant holds at reset. -/
def Obligations.InvariantsHoldAtReset : Prop :=
  DigestFollowsWall State.reset ∧ GenerationsCanonical State.reset ∧ ReportsBounded State.reset ∧
    QueueAccounted State.reset ∧ TimingSound State.reset ∧ EpochSound State.reset ∧ BusSound State.reset ∧
    RepairSound State.reset ∧ AuditSound State.reset

/-- R7, R8, R17: every step keeps the running digest equal to the digest of the wall state, and at most one entry per
target in each generation. -/
def Obligations.StepsKeepTheDigestAndTheGenerations : Prop :=
  ∀ s t : State, step s = .next t →
    (DigestFollowsWall s → DigestFollowsWall t) ∧ (GenerationsCanonical s → GenerationsCanonical t)

/-- R72, R85, R150, R151: every step keeps the two queues within their capacities and every queued item counted by exactly
one account. -/
def Obligations.StepsKeepTheQueuesAccounted : Prop :=
  ∀ s t : State, step s = .next t → (ReportsBounded s → ReportsBounded t) ∧ (QueueAccounted s → QueueAccounted t)

/-- R32, R33, R37, R39, R48, R51, R125: every step keeps the timer, the line, the offset, the epoch number and the staging
flag in the relations of `TimingSound` and `EpochSound`. -/
def Obligations.StepsKeepTheTimingAndTheEpoch : Prop :=
  ∀ s t : State, step s = .next t → (TimingSound s → TimingSound t) ∧ (EpochSound s → EpochSound t)

/-- R49, R57, R59, R64, R72: every step keeps the chosen message, the batch, the schedule and the abort count in the
relations of `BusSound`. -/
def Obligations.StepsKeepTheBusSound : Prop := ∀ s t : State, step s = .next t → BusSound s → BusSound t

/-- R87, R104, R106, R115, R116: every step keeps the own entry following the station state and the resync unit empty
outside repair. -/
def Obligations.StepsKeepTheRepairSound : Prop := ∀ s t : State, step s = .next t → RepairSound s → RepairSound t

/-- R93 to R98: every step keeps the own audit in the relations of `AuditSound`; that a message in transmission reports
the present state is `RepairSound`'s. -/
def Obligations.StepsKeepTheAuditSound : Prop :=
  ∀ s t : State, step s = .next t → RepairSound s → AuditSound s → AuditSound t

end
end

