-- ==== Sys2Proof/Laws/State.lean ====
section
/-! SUPPORT. The fields of a state after each named update of it: one lemma per field, true by unfolding the update, so that
no later proof unfolds a record update. -/

namespace Sys2Proof.Machine

/-! ### `State.report` -/

@[simp] theorem State.report_loader (s : State) (r : Record) : (s.report r).loader = s.loader := rfl
@[simp] theorem State.report_port (s : State) (r : Record) : (s.report r).port = s.port.enqueue r := rfl
@[simp] theorem State.report_command (s : State) (r : Record) : (s.report r).command = s.command := rfl
@[simp] theorem State.report_bus (s : State) (r : Record) : (s.report r).bus = s.bus := rfl
@[simp] theorem State.report_timer (s : State) (r : Record) : (s.report r).timer = s.timer := rfl
@[simp] theorem State.report_store (s : State) (r : Record) : (s.report r).store = s.store := rfl
@[simp] theorem State.report_members (s : State) (r : Record) : (s.report r).members = s.members := rfl
@[simp] theorem State.report_resync (s : State) (r : Record) : (s.report r).resync = s.resync := rfl
@[simp] theorem State.report_station (s : State) (r : Record) : (s.report r).station = s.station := rfl
@[simp] theorem State.report_pixel (s : State) (r : Record) : (s.report r).pixel = s.pixel := rfl
@[simp] theorem State.report_choices (s : State) (r : Record) : (s.report r).choices = s.choices := rfl
@[simp] theorem State.report_pending (s : State) (r : Record) : (s.report r).pending = s.pending := rfl

/-! ### `State.reportAll` -/

@[simp] theorem State.reportAll_loader (s : State) (rs : List Record) : (s.reportAll rs).loader = s.loader := rfl
@[simp] theorem State.reportAll_port (s : State) (rs : List Record) :
    (s.reportAll rs).port = s.port.enqueueAll rs := rfl
@[simp] theorem State.reportAll_command (s : State) (rs : List Record) : (s.reportAll rs).command = s.command := rfl
@[simp] theorem State.reportAll_bus (s : State) (rs : List Record) : (s.reportAll rs).bus = s.bus := rfl
@[simp] theorem State.reportAll_timer (s : State) (rs : List Record) : (s.reportAll rs).timer = s.timer := rfl
@[simp] theorem State.reportAll_store (s : State) (rs : List Record) : (s.reportAll rs).store = s.store := rfl
@[simp] theorem State.reportAll_members (s : State) (rs : List Record) : (s.reportAll rs).members = s.members := rfl
@[simp] theorem State.reportAll_resync (s : State) (rs : List Record) : (s.reportAll rs).resync = s.resync := rfl
@[simp] theorem State.reportAll_station (s : State) (rs : List Record) : (s.reportAll rs).station = s.station := rfl
@[simp] theorem State.reportAll_pixel (s : State) (rs : List Record) : (s.reportAll rs).pixel = s.pixel := rfl
@[simp] theorem State.reportAll_choices (s : State) (rs : List Record) : (s.reportAll rs).choices = s.choices := rfl
@[simp] theorem State.reportAll_pending (s : State) (rs : List Record) : (s.reportAll rs).pending = s.pending := rfl

/-! ### `State.runUnit` -/

@[simp] theorem State.runUnit_loader (s : State) (f : CommandUnit → CommandUnit × List Record) :
    (s.runUnit f).loader = s.loader := rfl
@[simp] theorem State.runUnit_port (s : State) (f : CommandUnit → CommandUnit × List Record) :
    (s.runUnit f).port = s.port.enqueueAll (f s.command).2 := rfl
@[simp] theorem State.runUnit_command (s : State) (f : CommandUnit → CommandUnit × List Record) :
    (s.runUnit f).command = (f s.command).1 := rfl
@[simp] theorem State.runUnit_bus (s : State) (f : CommandUnit → CommandUnit × List Record) :
    (s.runUnit f).bus = s.bus := rfl
@[simp] theorem State.runUnit_timer (s : State) (f : CommandUnit → CommandUnit × List Record) :
    (s.runUnit f).timer = s.timer := rfl
@[simp] theorem State.runUnit_store (s : State) (f : CommandUnit → CommandUnit × List Record) :
    (s.runUnit f).store = s.store := rfl
@[simp] theorem State.runUnit_members (s : State) (f : CommandUnit → CommandUnit × List Record) :
    (s.runUnit f).members = s.members := rfl
@[simp] theorem State.runUnit_resync (s : State) (f : CommandUnit → CommandUnit × List Record) :
    (s.runUnit f).resync = s.resync := rfl
@[simp] theorem State.runUnit_station (s : State) (f : CommandUnit → CommandUnit × List Record) :
    (s.runUnit f).station = s.station := rfl
@[simp] theorem State.runUnit_pixel (s : State) (f : CommandUnit → CommandUnit × List Record) :
    (s.runUnit f).pixel = s.pixel := rfl
@[simp] theorem State.runUnit_choices (s : State) (f : CommandUnit → CommandUnit × List Record) :
    (s.runUnit f).choices = s.choices := rfl
@[simp] theorem State.runUnit_pending (s : State) (f : CommandUnit → CommandUnit × List Record) :
    (s.runUnit f).pending = s.pending := rfl

/-! ### `State.runPixel` -/

@[simp] theorem State.runPixel_loader (s : State) (f : PixelPath → PixelPath × List Record) :
    (s.runPixel f).loader = s.loader := rfl
@[simp] theorem State.runPixel_port (s : State) (f : PixelPath → PixelPath × List Record) :
    (s.runPixel f).port = s.port.enqueueAll (f s.pixel).2 := rfl
@[simp] theorem State.runPixel_command (s : State) (f : PixelPath → PixelPath × List Record) :
    (s.runPixel f).command = s.command := rfl
@[simp] theorem State.runPixel_bus (s : State) (f : PixelPath → PixelPath × List Record) :
    (s.runPixel f).bus = s.bus := rfl
@[simp] theorem State.runPixel_timer (s : State) (f : PixelPath → PixelPath × List Record) :
    (s.runPixel f).timer = s.timer := rfl
@[simp] theorem State.runPixel_store (s : State) (f : PixelPath → PixelPath × List Record) :
    (s.runPixel f).store = s.store := rfl
@[simp] theorem State.runPixel_members (s : State) (f : PixelPath → PixelPath × List Record) :
    (s.runPixel f).members = s.members := rfl
@[simp] theorem State.runPixel_resync (s : State) (f : PixelPath → PixelPath × List Record) :
    (s.runPixel f).resync = s.resync := rfl
@[simp] theorem State.runPixel_station (s : State) (f : PixelPath → PixelPath × List Record) :
    (s.runPixel f).station = s.station := rfl
@[simp] theorem State.runPixel_pixel (s : State) (f : PixelPath → PixelPath × List Record) :
    (s.runPixel f).pixel = (f s.pixel).1 := rfl
@[simp] theorem State.runPixel_choices (s : State) (f : PixelPath → PixelPath × List Record) :
    (s.runPixel f).choices = s.choices := rfl
@[simp] theorem State.runPixel_pending (s : State) (f : PixelPath → PixelPath × List Record) :
    (s.runPixel f).pending = s.pending := rfl

/-! ### `State.beginLine` -/

@[simp] theorem State.beginLine_loader (s : State) (c : Settings) (line : Nat) :
    (s.beginLine c line).loader = s.loader := rfl
@[simp] theorem State.beginLine_port (s : State) (c : Settings) (line : Nat) :
    (s.beginLine c line).port = { s.port with cue := some (cueOf c line) } := rfl
@[simp] theorem State.beginLine_command (s : State) (c : Settings) (line : Nat) :
    (s.beginLine c line).command = s.command := rfl
@[simp] theorem State.beginLine_bus (s : State) (c : Settings) (line : Nat) : (s.beginLine c line).bus = s.bus := rfl
@[simp] theorem State.beginLine_timer (s : State) (c : Settings) (line : Nat) :
    (s.beginLine c line).timer = { s.timer with line := line } := rfl
@[simp] theorem State.beginLine_store (s : State) (c : Settings) (line : Nat) :
    (s.beginLine c line).store = s.store := rfl
@[simp] theorem State.beginLine_members (s : State) (c : Settings) (line : Nat) :
    (s.beginLine c line).members = s.members := rfl
@[simp] theorem State.beginLine_resync (s : State) (c : Settings) (line : Nat) :
    (s.beginLine c line).resync = s.resync := rfl
@[simp] theorem State.beginLine_station (s : State) (c : Settings) (line : Nat) :
    (s.beginLine c line).station = s.station := rfl
@[simp] theorem State.beginLine_pixel (s : State) (c : Settings) (line : Nat) :
    (s.beginLine c line).pixel = (s.pixel.lineStart c line s.timer.line).1 := rfl
@[simp] theorem State.beginLine_choices (s : State) (c : Settings) (line : Nat) :
    (s.beginLine c line).choices = s.choices := rfl
@[simp] theorem State.beginLine_pending (s : State) (c : Settings) (line : Nat) :
    (s.beginLine c line).pending = s.pending := rfl

/-! ### `State.enterJoining` -/

@[simp] theorem State.enterJoining_loader (s : State) : s.enterJoining.loader = s.loader := rfl
@[simp] theorem State.enterJoining_port (s : State) : s.enterJoining.port = s.port := rfl
@[simp] theorem State.enterJoining_command (s : State) : s.enterJoining.command = s.command := rfl
@[simp] theorem State.enterJoining_bus (s : State) : s.enterJoining.bus = s.bus := rfl
@[simp] theorem State.enterJoining_timer (s : State) : s.enterJoining.timer = s.timer := rfl
@[simp] theorem State.enterJoining_store (s : State) : s.enterJoining.store = s.store := rfl
@[simp] theorem State.enterJoining_members (s : State) :
    s.enterJoining.members = s.members.updateOwn s.rank? (Peer.ownActive · .joining) := rfl
@[simp] theorem State.enterJoining_resync (s : State) : s.enterJoining.resync = s.resync.enterRepair := rfl
@[simp] theorem State.enterJoining_station (s : State) : s.enterJoining.station = ⟨.joining, 0⟩ := rfl
@[simp] theorem State.enterJoining_pixel (s : State) : s.enterJoining.pixel = s.pixel := rfl
@[simp] theorem State.enterJoining_choices (s : State) : s.enterJoining.choices = s.choices := rfl
@[simp] theorem State.enterJoining_pending (s : State) : s.enterJoining.pending = s.pending := rfl

/-! ### `State.diverge` -/

@[simp] theorem State.diverge_loader (s : State) (cause : DivergeCause) : (s.diverge cause).loader = s.loader := rfl
@[simp] theorem State.diverge_port (s : State) (cause : DivergeCause) :
    (s.diverge cause).port = s.port.enqueue (.event (.diverged cause)) := rfl
@[simp] theorem State.diverge_command (s : State) (cause : DivergeCause) :
    (s.diverge cause).command = s.command := rfl
@[simp] theorem State.diverge_bus (s : State) (cause : DivergeCause) : (s.diverge cause).bus = s.bus := rfl
@[simp] theorem State.diverge_timer (s : State) (cause : DivergeCause) : (s.diverge cause).timer = s.timer := rfl
@[simp] theorem State.diverge_store (s : State) (cause : DivergeCause) : (s.diverge cause).store = s.store := rfl
@[simp] theorem State.diverge_members (s : State) (cause : DivergeCause) :
    (s.diverge cause).members =
      { s.members.updateOwn s.rank? (Peer.ownActive · .diverged) with stage := s.members.stage.diverged } := rfl
@[simp] theorem State.diverge_resync (s : State) (cause : DivergeCause) :
    (s.diverge cause).resync = s.resync.enterRepair := rfl
@[simp] theorem State.diverge_station (s : State) (cause : DivergeCause) :
    (s.diverge cause).station = { s.station with state := .diverged } := rfl
@[simp] theorem State.diverge_pixel (s : State) (cause : DivergeCause) : (s.diverge cause).pixel = s.pixel := rfl
@[simp] theorem State.diverge_choices (s : State) (cause : DivergeCause) :
    (s.diverge cause).choices = s.choices := rfl
@[simp] theorem State.diverge_pending (s : State) (cause : DivergeCause) :
    (s.diverge cause).pending = s.pending := rfl

/-! ### `State.repaired` -/

@[simp] theorem State.repaired_loader (s : State) (event : Event) : (s.repaired event).loader = s.loader := rfl
@[simp] theorem State.repaired_port (s : State) (event : Event) :
    (s.repaired event).port = s.port.enqueue (.event event) := rfl
@[simp] theorem State.repaired_command (s : State) (event : Event) : (s.repaired event).command = s.command := rfl
@[simp] theorem State.repaired_bus (s : State) (event : Event) : (s.repaired event).bus = s.bus := rfl
@[simp] theorem State.repaired_timer (s : State) (event : Event) : (s.repaired event).timer = s.timer := rfl
@[simp] theorem State.repaired_store (s : State) (event : Event) : (s.repaired event).store = s.store := rfl
@[simp] theorem State.repaired_members (s : State) (event : Event) :
    (s.repaired event).members = s.members.updateOwn s.rank? Peer.ownInStep := rfl
@[simp] theorem State.repaired_resync (s : State) (event : Event) :
    (s.repaired event).resync = s.resync.leaveRepair := rfl
@[simp] theorem State.repaired_station (s : State) (event : Event) :
    (s.repaired event).station = { s.station with state := .inStep } := rfl
@[simp] theorem State.repaired_pixel (s : State) (event : Event) : (s.repaired event).pixel = s.pixel := rfl
@[simp] theorem State.repaired_choices (s : State) (event : Event) : (s.repaired event).choices = s.choices := rfl
@[simp] theorem State.repaired_pending (s : State) (event : Event) : (s.repaired event).pending = s.pending := rfl

/-! ### `State.configured` -/

@[simp] theorem State.configured_loader (s : State) (c : Settings) : (s.configured c).loader = ⟨some c⟩ := rfl
@[simp] theorem State.configured_command (s : State) (c : Settings) : (s.configured c).command = s.command := rfl
@[simp] theorem State.configured_bus (s : State) (c : Settings) :
    (s.configured c).bus = { s.bus with round := .seeking } := rfl
@[simp] theorem State.configured_timer (s : State) (c : Settings) :
    (s.configured c).timer = { s.timer with running := true, line := 0 } := rfl
@[simp] theorem State.configured_store (s : State) (c : Settings) : (s.configured c).store = s.store := rfl
@[simp] theorem State.configured_members (s : State) (c : Settings) : (s.configured c).members = s.members := rfl
@[simp] theorem State.configured_resync (s : State) (c : Settings) : (s.configured c).resync = s.resync := rfl
@[simp] theorem State.configured_station (s : State) (c : Settings) :
    (s.configured c).station = ⟨.listening, 0⟩ := rfl
@[simp] theorem State.configured_choices (s : State) (c : Settings) : (s.configured c).choices = s.choices := rfl
@[simp] theorem State.configured_pending (s : State) (c : Settings) : (s.configured c).pending = s.pending := rfl

/-! ### `State.configFaulted` -/

@[simp] theorem State.configFaulted_loader (s : State) (reason : ConfigFaultReason) :
    (s.configFaulted reason).loader = s.loader := rfl
@[simp] theorem State.configFaulted_port (s : State) (reason : ConfigFaultReason) :
    (s.configFaulted reason).port = s.port.enqueue (.event (.configFault reason)) := rfl
@[simp] theorem State.configFaulted_command (s : State) (reason : ConfigFaultReason) :
    (s.configFaulted reason).command = s.command := rfl
@[simp] theorem State.configFaulted_bus (s : State) (reason : ConfigFaultReason) :
    (s.configFaulted reason).bus = s.bus := rfl
@[simp] theorem State.configFaulted_timer (s : State) (reason : ConfigFaultReason) :
    (s.configFaulted reason).timer = s.timer := rfl
@[simp] theorem State.configFaulted_store (s : State) (reason : ConfigFaultReason) :
    (s.configFaulted reason).store = s.store := rfl
@[simp] theorem State.configFaulted_members (s : State) (reason : ConfigFaultReason) :
    (s.configFaulted reason).members = s.members := rfl
@[simp] theorem State.configFaulted_resync (s : State) (reason : ConfigFaultReason) :
    (s.configFaulted reason).resync = s.resync := rfl
@[simp] theorem State.configFaulted_station (s : State) (reason : ConfigFaultReason) :
    (s.configFaulted reason).station = { s.station with state := .configFault } := rfl
@[simp] theorem State.configFaulted_pixel (s : State) (reason : ConfigFaultReason) :
    (s.configFaulted reason).pixel = s.pixel := rfl
@[simp] theorem State.configFaulted_choices (s : State) (reason : ConfigFaultReason) :
    (s.configFaulted reason).choices = s.choices := rfl
@[simp] theorem State.configFaulted_pending (s : State) (reason : ConfigFaultReason) :
    (s.configFaulted reason).pending = s.pending := rfl

/-! ### `State.accept` -/

@[simp] theorem State.accept_loader (s : State) (tag : Tag) (items : List Item) :
    (s.accept tag items).loader = s.loader := rfl
@[simp] theorem State.accept_port (s : State) (tag : Tag) (items : List Item) :
    (s.accept tag items).port = s.port.enqueue (.accepted tag) := rfl
@[simp] theorem State.accept_command (s : State) (tag : Tag) (items : List Item) :
    (s.accept tag items).command = s.command.intake tag items := rfl
@[simp] theorem State.accept_bus (s : State) (tag : Tag) (items : List Item) : (s.accept tag items).bus = s.bus := rfl
@[simp] theorem State.accept_timer (s : State) (tag : Tag) (items : List Item) :
    (s.accept tag items).timer = s.timer := rfl
@[simp] theorem State.accept_store (s : State) (tag : Tag) (items : List Item) :
    (s.accept tag items).store = s.store := rfl
@[simp] theorem State.accept_members (s : State) (tag : Tag) (items : List Item) :
    (s.accept tag items).members = s.members := rfl
@[simp] theorem State.accept_resync (s : State) (tag : Tag) (items : List Item) :
    (s.accept tag items).resync = s.resync := rfl
@[simp] theorem State.accept_station (s : State) (tag : Tag) (items : List Item) :
    (s.accept tag items).station = s.station := rfl
@[simp] theorem State.accept_pixel (s : State) (tag : Tag) (items : List Item) :
    (s.accept tag items).pixel = s.pixel := rfl
@[simp] theorem State.accept_choices (s : State) (tag : Tag) (items : List Item) :
    (s.accept tag items).choices = s.choices := rfl
@[simp] theorem State.accept_pending (s : State) (tag : Tag) (items : List Item) :
    (s.accept tag items).pending = s.pending := rfl

/-! ### `State.withdraw` -/

@[simp] theorem State.withdraw_loader (s : State) (tag : Tag) : (s.withdraw tag).loader = s.loader := rfl
@[simp] theorem State.withdraw_command (s : State) (tag : Tag) :
    (s.withdraw tag).command = s.command.withdrawn.1 := rfl
@[simp] theorem State.withdraw_bus (s : State) (tag : Tag) : (s.withdraw tag).bus = s.bus := rfl
@[simp] theorem State.withdraw_timer (s : State) (tag : Tag) : (s.withdraw tag).timer = s.timer := rfl
@[simp] theorem State.withdraw_store (s : State) (tag : Tag) : (s.withdraw tag).store = s.store := rfl
@[simp] theorem State.withdraw_members (s : State) (tag : Tag) : (s.withdraw tag).members = s.members := rfl
@[simp] theorem State.withdraw_resync (s : State) (tag : Tag) : (s.withdraw tag).resync = s.resync := rfl
@[simp] theorem State.withdraw_station (s : State) (tag : Tag) : (s.withdraw tag).station = s.station := rfl
@[simp] theorem State.withdraw_pixel (s : State) (tag : Tag) : (s.withdraw tag).pixel = s.pixel := rfl
@[simp] theorem State.withdraw_choices (s : State) (tag : Tag) : (s.withdraw tag).choices = s.choices := rfl
@[simp] theorem State.withdraw_pending (s : State) (tag : Tag) : (s.withdraw tag).pending = s.pending := rfl

/-! ### `State.rejoin` -/

@[simp] theorem State.rejoin_loader (s : State) (tag : Tag) : (s.rejoin tag).loader = s.loader := rfl
@[simp] theorem State.rejoin_command (s : State) (tag : Tag) : (s.rejoin tag).command = s.command.dropAll.1 := rfl
@[simp] theorem State.rejoin_bus (s : State) (tag : Tag) :
    (s.rejoin tag).bus = { s.bus.silence with aborts := 0, suspect := false, partDriven := s.drivenSoFar } := rfl
@[simp] theorem State.rejoin_timer (s : State) (tag : Tag) :
    (s.rejoin tag).timer = { s.timer with epoch := none, markPending := false } := rfl
@[simp] theorem State.rejoin_store (s : State) (tag : Tag) : (s.rejoin tag).store = WallStore.reset := rfl
@[simp] theorem State.rejoin_members (s : State) (tag : Tag) : (s.rejoin tag).members = Membership.reset := rfl
@[simp] theorem State.rejoin_resync (s : State) (tag : Tag) : (s.rejoin tag).resync = ResyncUnit.reset := rfl
@[simp] theorem State.rejoin_station (s : State) (tag : Tag) : (s.rejoin tag).station = ⟨.listening, 0⟩ := rfl
@[simp] theorem State.rejoin_pixel (s : State) (tag : Tag) : (s.rejoin tag).pixel = s.pixel := rfl
@[simp] theorem State.rejoin_choices (s : State) (tag : Tag) :
    (s.rejoin tag).choices = s.choices + if s.inFields then 1 else 0 := rfl
@[simp] theorem State.rejoin_pending (s : State) (tag : Tag) : (s.rejoin tag).pending = s.pending := rfl

/-! ### `State.found` -/

@[simp] theorem State.found_loader (s : State) : s.found.loader = s.loader := rfl
@[simp] theorem State.found_port (s : State) : s.found.port = s.port.enqueue (.event .founded) := rfl
@[simp] theorem State.found_command (s : State) : s.found.command = s.command := rfl
@[simp] theorem State.found_bus (s : State) : s.found.bus = s.bus := rfl
@[simp] theorem State.found_timer (s : State) :
    s.found.timer = { s.timer with epoch := some 0, markPending := true } := rfl
@[simp] theorem State.found_store (s : State) : s.found.store = s.store.openStaging := rfl
@[simp] theorem State.found_members (s : State) : s.found.members = s.members.updateOwn s.rank? Peer.ownInStep := rfl
@[simp] theorem State.found_resync (s : State) : s.found.resync = s.resync := rfl
@[simp] theorem State.found_station (s : State) : s.found.station = ⟨.inStep, 0⟩ := rfl
@[simp] theorem State.found_pixel (s : State) : s.found.pixel = s.pixel := rfl
@[simp] theorem State.found_choices (s : State) : s.found.choices = s.choices := rfl
@[simp] theorem State.found_pending (s : State) : s.found.pending = s.pending := rfl

/-! ### `State.choose` -/

@[simp] theorem State.choose_loader (s : State) (kind : MessageKind) : (s.choose kind).loader = s.loader := rfl
@[simp] theorem State.choose_port (s : State) (kind : MessageKind) : (s.choose kind).port = s.port := rfl
@[simp] theorem State.choose_command (s : State) (kind : MessageKind) :
    (s.choose kind).command = s.command.choose kind := rfl
@[simp] theorem State.choose_bus (s : State) (kind : MessageKind) :
    (s.choose kind).bus = { s.bus with chosen := some kind, field := .selected, drive := .reservationBit } := rfl
@[simp] theorem State.choose_timer (s : State) (kind : MessageKind) : (s.choose kind).timer = s.timer := rfl
@[simp] theorem State.choose_store (s : State) (kind : MessageKind) : (s.choose kind).store = s.store := rfl
@[simp] theorem State.choose_members (s : State) (kind : MessageKind) : (s.choose kind).members = s.members := rfl
@[simp] theorem State.choose_resync (s : State) (kind : MessageKind) : (s.choose kind).resync = s.resync := rfl
@[simp] theorem State.choose_station (s : State) (kind : MessageKind) : (s.choose kind).station = s.station := rfl
@[simp] theorem State.choose_pixel (s : State) (kind : MessageKind) : (s.choose kind).pixel = s.pixel := rfl
@[simp] theorem State.choose_choices (s : State) (kind : MessageKind) : (s.choose kind).choices = s.choices := rfl
@[simp] theorem State.choose_pending (s : State) (kind : MessageKind) : (s.choose kind).pending = s.pending := rfl

/-! ### `State.openWindow` -/

@[simp] theorem State.openWindow_loader (s : State) (e : Epoch) : (s.openWindow e).loader = s.loader := rfl
@[simp] theorem State.openWindow_port (s : State) (e : Epoch) : (s.openWindow e).port = s.port := rfl
@[simp] theorem State.openWindow_command (s : State) (e : Epoch) : (s.openWindow e).command = s.command := rfl
@[simp] theorem State.openWindow_bus (s : State) (e : Epoch) : (s.openWindow e).bus = s.bus := rfl
@[simp] theorem State.openWindow_timer (s : State) (e : Epoch) : (s.openWindow e).timer = s.timer := rfl
@[simp] theorem State.openWindow_store (s : State) (e : Epoch) : (s.openWindow e).store = s.store := rfl
@[simp] theorem State.openWindow_members (s : State) (e : Epoch) :
    (s.openWindow e).members = s.members.openWindow s.station.state s.store.closed.isSome s.store.digest e := rfl
@[simp] theorem State.openWindow_resync (s : State) (e : Epoch) : (s.openWindow e).resync = s.resync := rfl
@[simp] theorem State.openWindow_station (s : State) (e : Epoch) : (s.openWindow e).station = s.station := rfl
@[simp] theorem State.openWindow_pixel (s : State) (e : Epoch) : (s.openWindow e).pixel = s.pixel := rfl
@[simp] theorem State.openWindow_choices (s : State) (e : Epoch) : (s.openWindow e).choices = s.choices := rfl
@[simp] theorem State.openWindow_pending (s : State) (e : Epoch) : (s.openWindow e).pending = s.pending := rfl

/-! ### `State.checkSilence` -/

@[simp] theorem State.checkSilence_loader (s : State) (c : Settings) (adopted : Epoch) :
    (s.checkSilence c adopted).loader = s.loader := rfl
@[simp] theorem State.checkSilence_command (s : State) (c : Settings) (adopted : Epoch) :
    (s.checkSilence c adopted).command = s.command := rfl
@[simp] theorem State.checkSilence_bus (s : State) (c : Settings) (adopted : Epoch) :
    (s.checkSilence c adopted).bus = s.bus := rfl
@[simp] theorem State.checkSilence_timer (s : State) (c : Settings) (adopted : Epoch) :
    (s.checkSilence c adopted).timer = s.timer := rfl
@[simp] theorem State.checkSilence_store (s : State) (c : Settings) (adopted : Epoch) :
    (s.checkSilence c adopted).store = s.store := rfl
@[simp] theorem State.checkSilence_members (s : State) (c : Settings) (adopted : Epoch) :
    (s.checkSilence c adopted).members = s.members.silenceCheck c s.rank? adopted := rfl
@[simp] theorem State.checkSilence_resync (s : State) (c : Settings) (adopted : Epoch) :
    (s.checkSilence c adopted).resync = s.resync := rfl
@[simp] theorem State.checkSilence_station (s : State) (c : Settings) (adopted : Epoch) :
    (s.checkSilence c adopted).station = s.station := rfl
@[simp] theorem State.checkSilence_pixel (s : State) (c : Settings) (adopted : Epoch) :
    (s.checkSilence c adopted).pixel = s.pixel := rfl
@[simp] theorem State.checkSilence_choices (s : State) (c : Settings) (adopted : Epoch) :
    (s.checkSilence c adopted).choices = s.choices := rfl
@[simp] theorem State.checkSilence_pending (s : State) (c : Settings) (adopted : Epoch) :
    (s.checkSilence c adopted).pending = s.pending := rfl

/-! ### `State.fieldAfterMark` -/

@[simp] theorem State.fieldAfterMark_loader (s : State) : s.fieldAfterMark.loader = s.loader := rfl
@[simp] theorem State.fieldAfterMark_port (s : State) : s.fieldAfterMark.port = s.port := rfl
@[simp] theorem State.fieldAfterMark_command (s : State) : s.fieldAfterMark.command = s.command := rfl
@[simp] theorem State.fieldAfterMark_bus (s : State) :
    s.fieldAfterMark.bus = { s.bus with field := .reservation, partDriven := recessiveField 16 } := rfl
@[simp] theorem State.fieldAfterMark_timer (s : State) : s.fieldAfterMark.timer = s.timer := rfl
@[simp] theorem State.fieldAfterMark_store (s : State) : s.fieldAfterMark.store = s.store := rfl
@[simp] theorem State.fieldAfterMark_members (s : State) : s.fieldAfterMark.members = s.members := rfl
@[simp] theorem State.fieldAfterMark_resync (s : State) : s.fieldAfterMark.resync = s.resync := rfl
@[simp] theorem State.fieldAfterMark_station (s : State) : s.fieldAfterMark.station = s.station := rfl
@[simp] theorem State.fieldAfterMark_pixel (s : State) : s.fieldAfterMark.pixel = s.pixel := rfl
@[simp] theorem State.fieldAfterMark_choices (s : State) : s.fieldAfterMark.choices = s.choices := rfl
@[simp] theorem State.fieldAfterMark_pending (s : State) : s.fieldAfterMark.pending = s.pending := rfl

/-! ### `State.withQueue` -/

@[simp] theorem State.withQueue_loader (s : State) (queue : List Instr) : (s.withQueue queue).loader = s.loader := rfl
@[simp] theorem State.withQueue_port (s : State) (queue : List Instr) : (s.withQueue queue).port = s.port := rfl
@[simp] theorem State.withQueue_command (s : State) (queue : List Instr) :
    (s.withQueue queue).command = s.command := rfl
@[simp] theorem State.withQueue_bus (s : State) (queue : List Instr) : (s.withQueue queue).bus = s.bus := rfl
@[simp] theorem State.withQueue_timer (s : State) (queue : List Instr) : (s.withQueue queue).timer = s.timer := rfl
@[simp] theorem State.withQueue_store (s : State) (queue : List Instr) : (s.withQueue queue).store = s.store := rfl
@[simp] theorem State.withQueue_members (s : State) (queue : List Instr) :
    (s.withQueue queue).members = s.members := rfl
@[simp] theorem State.withQueue_resync (s : State) (queue : List Instr) : (s.withQueue queue).resync = s.resync := rfl
@[simp] theorem State.withQueue_station (s : State) (queue : List Instr) :
    (s.withQueue queue).station = s.station := rfl
@[simp] theorem State.withQueue_pixel (s : State) (queue : List Instr) : (s.withQueue queue).pixel = s.pixel := rfl
@[simp] theorem State.withQueue_choices (s : State) (queue : List Instr) :
    (s.withQueue queue).choices = s.choices := rfl
@[simp] theorem State.withQueue_pending (s : State) (queue : List Instr) : (s.withQueue queue).pending = queue := rfl

end Sys2Proof.Machine
end

