-- ==== Sys2Proof/Laws/Ops.lean ====
section
/-! SUPPORT. What each shared operation can do, said once, for proofs to cite in place of unfolding it. -/

namespace Sys2Proof.Machine

open Sys2Proof.Safety

/-! ### Tables of sixteen -/

theorem mem_allRanks (r : Rank) : r ∈ allRanks := by
  revert r; decide

@[simp] theorem atRank_setRank_same {α : Type} (table : Vector α 16) (r : Rank) (a : α) :
    atRank (setRank table r a) r = a := by
  simp [atRank, setRank]

theorem atRank_setRank_other {α : Type} (table : Vector α 16) {r q : Rank} (a : α) (h : q ≠ r) :
    atRank (setRank table r a) q = atRank table q := by
  have h' : r.toNat ≠ q.toNat := fun e => h (BitVec.eq_of_toNat_eq e.symm)
  simp [atRank, setRank, h']

@[simp] theorem atRank_ofRanks {α : Type} (f : Rank → α) (r : Rank) : atRank (ofRanks f) r = f r := by
  simp [atRank, ofRanks, allRanks]

@[simp] theorem Membership.update_same (m : Membership) (r : Rank) (f : Peer → Peer) :
    atRank (m.update r f).table r = f (atRank m.table r) := by
  simp [Membership.update]

theorem Membership.update_other (m : Membership) {r q : Rank} (f : Peer → Peer) (h : q ≠ r) :
    atRank (m.update r f).table q = atRank m.table q := by
  simp [Membership.update, atRank_setRank_other _ _ h]

/-- The audit state is not the table's. -/
theorem Membership.updateOwn_audit (m : Membership) (rank : Option Rank) (f : Peer → Peer) :
    (m.updateOwn rank f).window = m.window ∧ (m.updateOwn rank f).stage = m.stage ∧
      (m.updateOwn rank f).record = m.record ∧ (m.updateOwn rank f).tally = m.tally := by
  cases rank <;> exact ⟨rfl, rfl, rfl, rfl⟩

/-! ### The report queue -/

/-- A record is queued with the omitted count, or counted. -/
theorem SourcePort.enqueue_cases (p : SourcePort) (r : Record) :
    (p.reports.length < Config.reportCapacity ∧
      p.enqueue r = { p with reports := p.reports ++ [⟨r, p.omitted⟩], omitted := 0 }) ∨
      (Config.reportCapacity ≤ p.reports.length ∧
        p.enqueue r = { p with omitted := min Config.omittedLimit (p.omitted + 1) }) := by
  unfold SourcePort.enqueue
  split
  · exact .inl ⟨‹_›, rfl⟩
  · exact .inr ⟨by omega, rfl⟩

@[simp] theorem SourcePort.enqueueAll_nil (p : SourcePort) : p.enqueueAll [] = p := rfl

@[simp] theorem SourcePort.enqueueAll_cons (p : SourcePort) (r : Record) (rs : List Record) :
    p.enqueueAll (r :: rs) = (p.enqueue r).enqueueAll rs := rfl

theorem SourcePort.enqueueAll_append (p : SourcePort) (rs rs' : List Record) :
    p.enqueueAll (rs ++ rs') = (p.enqueueAll rs).enqueueAll rs' := by
  simp [SourcePort.enqueueAll]

@[simp] theorem SourcePort.enqueue_assembly (p : SourcePort) (r : Record) : (p.enqueue r).assembly = p.assembly := by
  rcases p.enqueue_cases r with ⟨_, h⟩ | ⟨_, h⟩ <;> rw [h]

@[simp] theorem SourcePort.enqueue_cue (p : SourcePort) (r : Record) : (p.enqueue r).cue = p.cue := by
  rcases p.enqueue_cases r with ⟨_, h⟩ | ⟨_, h⟩ <;> rw [h]

@[simp] theorem SourcePort.enqueue_sentWords (p : SourcePort) (r : Record) : (p.enqueue r).sentWords = p.sentWords := by
  rcases p.enqueue_cases r with ⟨_, h⟩ | ⟨_, h⟩ <;> rw [h]

/-- Queuing touches neither the assembly nor what went out. -/
theorem SourcePort.enqueueAll_frame (p : SourcePort) (rs : List Record) :
    (p.enqueueAll rs).assembly = p.assembly ∧ (p.enqueueAll rs).cue = p.cue ∧
      (p.enqueueAll rs).sentWords = p.sentWords := by
  induction rs generalizing p with
  | nil => exact ⟨rfl, rfl, rfl⟩
  | cons r rs ih => simpa using ih (p.enqueue r)

/-! ### Free orders -/

/-- Two blocks that queue records take either order and one free choice; the order decides nothing else. -/
theorem State.eitherOrder_cases (s : State) (records : List Record) (queues : Bool) (act : State → State) :
    ((records = [] ∨ queues = false) ∧ s.eitherOrder records queues act = (act s).reportAll records) ∨
      (records ≠ [] ∧ queues = true ∧ ∃ port,
        (port = (act (s.reportAll records)).port ∨ port = (act s).port.enqueueAll records) ∧
          s.eitherOrder records queues act = { act s with port := port, choices := s.choices + 1 }) := by
  unfold State.eitherOrder
  split
  · rename_i h
    exact .inl ⟨by simpa using h, rfl⟩
  · rename_i h
    simp only [Bool.or_eq_true, decide_eq_true_eq, Bool.not_eq_true', not_or, Bool.not_eq_false] at h
    refine .inr ⟨h.1, h.2, _, ?_, rfl⟩
    split
    · exact .inl rfl
    · exact .inr rfl

/-! ### The wall state store -/

@[simp] theorem WallState.item_write_same (w : WallState) (i : Item) : (w.write i).item i.target = i := by
  cases i <;> simp [WallState.write, WallState.item, Item.target]

theorem WallState.item_write_other (w : WallState) (i : Item) {t : Target} (h : t ≠ i.target) :
    (w.write i).item t = w.item t := by
  cases i <;> cases t <;>
    simp_all [WallState.write, WallState.item, Item.target, Fin.ext_iff, eq_comm]

/-- The item a target holds is an item for that target. -/
@[simp] theorem WallState.item_target (w : WallState) (t : Target) : (w.item t).target = t := by
  cases t <;> rfl

/-- A wall state is what its targets hold. -/
theorem WallState.ext_items {w w' : WallState} (h : ∀ t, w.item t = w'.item t) : w = w' := by
  cases w with
  | mk slots rows position visibility =>
    cases w' with
    | mk slots' rows' position' visibility' =>
      have hp := h .position
      have hv := h .visibility
      simp only [WallState.item, Item.setPosition.injEq, Item.setVisibility.injEq] at hp hv
      subst hp hv
      have hs : slots = slots' := Vector.ext fun i hi => by
        have := h (.slot ⟨i, hi⟩)
        simpa [WallState.item] using this
      have hr : rows = rows' := Vector.ext fun i hi => by
        have := h (.row ⟨i, hi⟩)
        simpa [WallState.item] using this
      subst hs hr
      rfl

/-- A write of the store is a write of the wall state; the generations and the flag stay. -/
theorem WallStore.writeAll_frame (st : WallStore) (items : List Item) :
    (st.writeAll items).wall = items.foldl WallState.write st.wall ∧ (st.writeAll items).opened = st.opened ∧
      (st.writeAll items).closed = st.closed ∧ (st.writeAll items).staging = st.staging := by
  induction items generalizing st with
  | nil => exact ⟨rfl, rfl, rfl, rfl⟩
  | cons i items ih => exact ih (st.write i)

/-- The targets of a generation after an item was taken. -/
theorem mem_insertItem {i j : Item} {items : List Item} (h : j ∈ insertItem i items) : j = i ∨ j ∈ items := by
  induction items with
  | nil => simpa [insertItem] using h
  | cons k rest ih =>
    simp only [insertItem] at h
    split at h
    · simpa using h
    · split at h
      · rcases List.mem_cons.1 h with rfl | h
        · exact .inl rfl
        · exact .inr (List.mem_cons_of_mem _ h)
      · rcases List.mem_cons.1 h with rfl | h
        · exact .inr (List.mem_cons_self ..)
        · rcases ih h with rfl | h
          · exact .inl rfl
          · exact .inr (List.mem_cons_of_mem _ h)

/-- Taking an item keeps a generation canonical. -/
theorem insertItem_canonical {items : List Item} (i : Item) (h : CanonicalGeneration items) :
    CanonicalGeneration (insertItem i items) := by
  induction items with
  | nil => simp [insertItem, CanonicalGeneration]
  | cons j rest ih =>
    have hj := List.pairwise_cons.1 h
    simp only [insertItem]
    split
    · rename_i hlt
      refine List.pairwise_cons.2 ⟨fun k hk => ?_, h⟩
      rcases List.mem_cons.1 hk with rfl | hk
      · exact hlt
      · exact hlt.trans (hj.1 k hk)
    · split
      · rename_i heq
        exact List.pairwise_cons.2 ⟨fun k hk => heq ▸ hj.1 k hk, hj.2⟩
      · rename_i hlt hne
        refine List.pairwise_cons.2 ⟨fun k hk => ?_, ih hj.2⟩
        rcases mem_insertItem hk with rfl | hk
        · omega
        · exact hj.1 k hk

/-- Taking several items keeps a generation canonical. -/
theorem foldl_insertItem_canonical (items : List Item) {g : List Item} (h : CanonicalGeneration g) :
    CanonicalGeneration (items.foldl (fun g i => insertItem i g) g) := by
  induction items generalizing g with
  | nil => exact h
  | cons i items ih => exact ih (insertItem_canonical i h)

/-- An apply does nothing without a PENDING generation, and otherwise writes it, queues its records and builds the own
audit record that waited for it. -/
theorem State.applyClosed_cases (s : State) (torn : Bool) :
    (s.store.closed = none ∧ s.applyClosed torn = s) ∨
      ∃ g, s.store.closed = some g ∧
        s.applyClosed torn =
          { s with
            store := s.store.applyGeneration g
            port := s.port.enqueueAll (applyRecords g torn)
            members := s.members.buildRecord (s.store.applyGeneration g).digest } := by
  unfold State.applyClosed
  split
  · exact .inl ⟨‹_›, rfl⟩
  · exact .inr ⟨_, ‹_›, rfl⟩

/-- What the build of an own audit record can change: the stage and the record, and only of a stage that waits. -/
theorem Membership.buildRecord_cases (m : Membership) (digest : Digest) :
    m.buildRecord digest = m ∨
      ∃ w, m.window = some w ∧
        (m.stage = .awaitingApply .digest ∧
            m.buildRecord digest = { m with record := some ⟨w.epoch, digest⟩, stage := .pending .digest } ∨
          m.stage = .awaitingApply .heartbeat ∧ m.buildRecord digest = { m with stage := .pending .heartbeat }) := by
  unfold Membership.buildRecord
  split
  · rename_i w hs hw
    exact .inr ⟨w, hw, .inl ⟨hs, rfl⟩⟩
  · rename_i w hs hw
    exact .inr ⟨w, hw, .inr ⟨hs, rfl⟩⟩
  · exact .inl rfl

/-! ### Changes of station state -/

/-- Muting leaves a MUTED station as it is. -/
theorem State.mute_of_muted {s : State} (cause : MuteCause) (h : s.station.state = .muted) : s.mute cause = s := by
  simp [State.mute, h]

/-- Muting changes no configuration, no line or frame timing, no wall state and no pixel. -/
theorem State.mute_frame (s : State) (cause : MuteCause) :
    (s.mute cause).loader = s.loader ∧ (s.mute cause).store = s.store ∧ (s.mute cause).pixel = s.pixel ∧
      (s.mute cause).pending = s.pending ∧ (s.mute cause).station = { s.station with state := .muted } ∧
      (s.mute cause).timer = { s.timer with markPending := (s.mute cause).timer.markPending } := by
  unfold State.mute
  split
  · rename_i h
    refine ⟨rfl, rfl, rfl, rfl, ?_, rfl⟩
    rw [← h]
  · exact ⟨rfl, rfl, rfl, rfl, rfl, rfl⟩

/-- A receive error by the station state. -/
theorem State.receiveError_cases (s : State) :
    (s.station.state = .inStep ∧ s.receiveError = s.diverge .receiveError) ∨
      (s.station.state.repairing = true ∧
        s.receiveError = { s with resync := { s.resync with received := noBlocks } }) ∨
      (s.station.state = .muted ∧ s.receiveError = { s with bus := { s.bus with suspect := true } }) ∨
      s.receiveError = s := by
  unfold State.receiveError
  split <;> simp_all [StationState.repairing]

/-- An outcome ABORTED clears the chosen message, and settles a batch if the message was an UPDATE. -/
theorem State.outcomeAborted_cases (s : State) :
    (s.bus.chosen = some .update ∧
      s.outcomeAborted =
        { s with
          command := s.command.batchAborted.1
          port := s.port.enqueueAll s.command.batchAborted.2
          bus := { s.bus with chosen := none } }) ∨
      (s.bus.chosen ≠ some .update ∧ s.outcomeAborted = { s with bus := { s.bus with chosen := none } }) := by
  unfold State.outcomeAborted
  split
  · exact .inl ⟨‹_›, rfl⟩
  · exact .inr ⟨‹_›, rfl⟩

/-- A readback abort hands the outcome on, raises the count, and mutes the station that reached the limit. -/
theorem State.readbackAbort_cases (s : State) :
    let aborted :=
      { s.outcomeAborted with bus := { s.outcomeAborted.bus with aborts := s.outcomeAborted.bus.aborts + 1 } }
    (Config.abortLimit ≤ s.outcomeAborted.bus.aborts + 1 ∧ s.readbackAbort = aborted.mute .repeatedAbort) ∨
      (s.outcomeAborted.bus.aborts + 1 < Config.abortLimit ∧ s.readbackAbort = aborted) := by
  intro aborted
  unfold State.readbackAbort
  simp only
  split
  · exact .inl ⟨‹_›, rfl⟩
  · exact .inr ⟨Nat.lt_of_not_le ‹_›, rfl⟩

/-- What the end of a slot does to a message of this station: nothing where it holds none for this slot, the readback
abort over which it drives the abort pattern, or the return to its owner. -/
theorem State.slotOutcome_cases (s : State) :
    ((s.ownSlot = false ∨ s.bus.chosen = none) ∧ s.slotOutcome = s) ∨
      (s.ownSlot = true ∧ s.bus.chosen ≠ none ∧
        (s.bus.drive = .abortPattern ∧ s.slotOutcome = s.readbackAbort ∨
          s.bus.drive ≠ .abortPattern ∧ s.slotOutcome = s.outcomeAborted)) := by
  unfold State.slotOutcome
  split
  · rename_i h
    simp only [Bool.and_eq_true, Option.isSome_iff_ne_none] at h
    refine .inr ⟨h.1, h.2, ?_⟩
    split
    · exact .inl ⟨‹_›, rfl⟩
    · exact .inr ⟨‹_›, rfl⟩
  · rename_i h
    simp only [Bool.and_eq_true, not_and_or, Bool.not_eq_true, Option.isSome_eq_false_iff, Option.isNone_iff_eq_none] at h
    exact .inl ⟨h, rfl⟩

/-! ### Rounds and slots -/

/-- Bit by bit: the bits of the reservation field from the `n`-th on are recessive. -/
theorem lowBits_getLsbD (n : Nat) (field : BitVec 16) {i : Nat} (h : i < 16) :
    (lowBits n field).getLsbD i = (field.getLsbD i || decide (n ≤ i)) := by
  rw [lowBits, BitVec.getLsbD_or, BitVec.getLsbD_shiftLeft, BitVec.getLsbD_allOnes]
  have hi : i - n < 16 := by omega
  simp [h, hi, ← decide_not]

/-- Bit by bit: of a field of `w` bits sent most significant bit first, all but the first `n` are recessive. -/
theorem highBits_getLsbD (w n : Nat) (field : BitVec 16) {i : Nat} (h : i < 16) :
    (highBits w n field).getLsbD i = (field.getLsbD i || decide (i < w - n)) := by
  rw [highBits, BitVec.getLsbD_or, BitVec.getLsbD_ofNat, Nat.testBit_two_pow_sub_one]
  simp [h]

/-- Outside the fields a station has part driven what it had part driven before. -/
theorem State.drivenSoFar_of_outside {s : State} (h : s.inFields = false) : s.drivenSoFar = s.bus.partDriven := by
  simp [State.drivenSoFar, h]

/-- Leaving a round keeps the belief, the chosen message, the count and the suspect flag. -/
theorem BusController.leaveRound_frame (b : BusController) (round : RoundState) :
    (b.leaveRound round).belief = b.belief ∧ (b.leaveRound round).chosen = b.chosen ∧
      (b.leaveRound round).aborts = b.aborts ∧ (b.leaveRound round).suspect = b.suspect ∧
      (b.leaveRound round).schedule = [] ∧ (b.leaveRound round).slot = 0 ∧ (b.leaveRound round).driving = false ∧
      (b.leaveRound round).drive = .recessive ∧ (b.leaveRound round).round = round :=
  ⟨rfl, rfl, rfl, rfl, rfl, rfl, rfl, rfl, rfl⟩

/-- A slot's end is the next slot or the round end. -/
theorem BusController.endSlot_cases (b : BusController) :
    (b.slot + 1 < b.schedule.length ∧
      b.endSlot = { b with slot := b.slot + 1, slotDamaged := false, drive := .recessive }) ∨
      (b.schedule.length ≤ b.slot + 1 ∧
        ∃ belief, b.endSlot = { b.leaveRound .gap with belief := belief } ∧
          (∀ last, b.schedule.getLast? = some last → belief = last + 1) ∧
          (b.schedule = [] → belief = b.belief)) := by
  unfold BusController.endSlot BusController.endRound
  split
  · exact .inl ⟨‹_›, rfl⟩
  · refine .inr ⟨by omega, ?_⟩
    split
    · rename_i r hr
      refine ⟨r + 1, rfl, fun last h => ?_, fun h => ?_⟩
      · rw [hr] at h; cases h; rfl
      · simp [h] at hr
    · rename_i hr
      refine ⟨b.belief, rfl, fun last h => ?_, fun _ => rfl⟩
      rw [hr] at h; cases h

/-- The message of a slot is one this station aborts, the own one, a valid one, or a receive error. -/
theorem State.takeMessage_cases (s : State) (scheduled : Rank) (read : Option (List Byte)) :
    (s.bus.drive = .abortPattern ∧ s.takeMessage scheduled read = s) ∨
      (∃ m, s.bus.drive.transmitting = some m ∧ s.takeMessage scheduled read = s.takeOwn m) ∨
      (s.bus.drive.transmitting = none ∧ s.bus.drive ≠ .abortPattern ∧
        ∃ m, classify scheduled (if s.bus.slotDamaged then none else read) = some m ∧
        s.takeMessage scheduled read = s.takeValid m) ∨
      (s.bus.drive.transmitting = none ∧ s.bus.drive ≠ .abortPattern ∧
        classify scheduled (if s.bus.slotDamaged then none else read) = none ∧
        s.takeMessage scheduled read = s.receiveError) := by
  unfold State.takeMessage
  split
  · exact .inl ⟨‹_›, rfl⟩
  · split
    · exact .inr (.inl ⟨_, ‹_›, rfl⟩)
    · split
      · exact .inr (.inr (.inl ⟨‹_›, ‹_›, _, ‹_›, rfl⟩))
      · exact .inr (.inr (.inr ⟨‹_›, ‹_›, ‹_›, rfl⟩))

/-- A message that is classified as valid was read without a violation, decodes, and comes from the scheduled rank. -/
theorem classify_some {scheduled : Rank} {read : Option (List Byte)} {m : Message}
    (h : classify scheduled read = some m) :
    ∃ bytes, read = some bytes ∧ readMessage bytes = some m ∧ m.rank = scheduled := by
  unfold classify at h
  split at h
  · cases h
  · split at h
    · cases h
    · rename_i bytes _ m' hm
      split at h
      · cases h; exact ⟨bytes, rfl, hm, ‹_›⟩
      · cases h

/-- While a RESYNC REQUEST is pending, neither a BLOCK nor an UPDATE is chosen (R74, R107). -/
theorem State.candidate_of_requestPending {s : State} (h : s.resync.requestPending = true) :
    s.candidate ≠ some .block ∧ s.candidate ≠ some .update := by
  unfold State.candidate
  repeat' split
  all_goals simp_all

/-! ### Commands -/

/-- A command word of a row either completes a command of the row's kind, which acts on the station with no command
held, or changes nothing. -/
theorem State.takeCommand_cases (s : State) (payload : Word) (kind : Option CommandKind)
    (act : State → Command → State) :
    (∃ c, assemble s.port.assembly payload = .complete c ∧ commandKind c.kind = kind ∧
      s.takeCommand payload kind act = act { s with port := { s.port with assembly := none } } c) ∨
      s.takeCommand payload kind act = s := by
  unfold State.takeCommand
  split
  · split
    · exact .inl ⟨_, ‹_›, ‹_›, rfl⟩
    · exact .inr rfl
  · exact .inr rfl

/-- An item-making command is refused, or its items are queued. -/
theorem State.takeRequest_cases (s : State) (tag : Tag) (request : Request) :
    (∃ reason, s.takeRequest tag request = s.refuse tag reason) ∨
      ∃ items, request = .items items ∧ s.active = true ∧ items.length ≤ s.command.freeCapacity ∧
        s.takeRequest tag request = s.accept tag items := by
  unfold State.takeRequest
  split
  · exact .inl ⟨_, rfl⟩
  · split <;> exact .inl ⟨_, rfl⟩
  · rename_i items
    split
    · exact .inl ⟨_, rfl⟩
    · split
      · rename_i ha hl
        exact .inr ⟨items, rfl, by simpa using ha, hl, rfl⟩
      · exact .inl ⟨_, rfl⟩

/-! ### Marks -/

/-- The correction of a follower: an advance that stays in the blank, or line 0 with or without a TIMING JUMP. -/
theorem State.catchUp_cases (s : State) (c : Settings) (behind : Nat) :
    (behind ≤ c.lockWindow ∧ s.timer.line + min behind c.slewLimit < c.totalLines ∧
      s.catchUp c behind =
        { s with timer := { s.timer with line := s.timer.line + min behind c.slewLimit, phase := .covered } }) ∨
      (behind ≤ c.lockWindow ∧ c.totalLines ≤ s.timer.line + min behind c.slewLimit ∧
        s.catchUp c behind = { s with timer := { s.timer with phase := .waiting } }.beginLine c 0) ∨
      (c.lockWindow < behind ∧
        s.catchUp c behind =
          { s with
            timer := { s.timer with phase := .waiting }
            port := s.port.enqueue (.event (.timingJump (-(behind : Int)))) }.beginLine c 0) := by
  unfold State.catchUp
  split
  · rename_i hb
    simp only
    split
    · exact .inl ⟨hb, ‹_›, rfl⟩
    · exact .inr (.inl ⟨hb, by omega, rfl⟩)
  · exact .inr (.inr ⟨by omega, rfl⟩)

/-- The close of a window, with or without the divergence it decides. -/
theorem State.closeWindow_cases (s : State) (w : AuditWindow) :
    let decided :=
      { s with members := s.members.decide.clearAudit, port := s.port.enqueueAll (s.members.lateRecords w) }
    (s.members.ownMismatch s.rank? = true ∧ s.station.state = .inStep ∧
      s.closeWindow w = decided.diverge .auditMismatch) ∨ s.closeWindow w = decided := by
  intro decided
  unfold State.closeWindow
  simp only
  split
  · rename_i h
    simp only [Bool.and_eq_true, decide_eq_true_eq] at h
    exact .inl ⟨h.1, h.2, rfl⟩
  · exact .inr rfl

/-- The provider wait at a mark: the epoch-block flag cleared, and for a station that was and is repairing a promotion or
the new counter. -/
theorem State.waitMark_cases (s : State) (c : Settings) (repairingBefore eligibleBefore : Bool) :
    let cleared := { s with resync := { s.resync with epochBlock := false } }
    let wait := s.resync.waitAfter eligibleBefore
    (repairingBefore = true ∧ s.station.state.repairing = true ∧ c.silenceLimit ≤ wait ∧
      s.waitMark c repairingBefore eligibleBefore = cleared.repaired .selfPromoted) ∨
      (repairingBefore = true ∧ s.station.state.repairing = true ∧ wait < c.silenceLimit ∧
        s.waitMark c repairingBefore eligibleBefore =
          { cleared with resync := { cleared.resync with wait := wait } }) ∨
      s.waitMark c repairingBefore eligibleBefore = cleared := by
  intro cleared wait
  unfold State.waitMark
  simp only
  split
  · rename_i h
    simp only [Bool.and_eq_true] at h
    split
    · exact .inl ⟨h.1, h.2, ‹_›, rfl⟩
    · exact .inr (.inl ⟨h.1, h.2, Nat.lt_of_not_le ‹_›, rfl⟩)
  · exact .inr (.inr rfl)

/-- The four actions of a mark: the resync unit's is last, and only a self-promotion may come earlier. -/
theorem State.markActions_cases (s : State) (c : Settings) (adopted : Epoch) :
    let timer := fun t : State => t.timerMark c adopted
    let store := fun t : State => t.storeMark c s.timer.line adopted (offsetAt c s.timer.phase s.timer.line)
    let members := fun t : State => t.stationMark.memberMark c s.timer.epoch adopted
    let resync := fun t : State => t.waitMark c s.station.state.repairing s.anyEligible
    s.markActions c adopted = [timer, store, members, resync] ∨
      s.promotes c = true ∧ (s.markActions c adopted = [timer, resync, store, members] ∨
        s.markActions c adopted = [timer, store, resync, members]) := by
  intro timer store members resync
  unfold State.markActions
  split
  · rename_i h
    have below : Config.choice s.choices % 3 < 3 := Nat.mod_lt _ (by decide)
    generalize Config.choice s.choices % 3 = n at below
    match n, below with
    | 0, _ => exact .inr ⟨h, .inl rfl⟩
    | 1, _ => exact .inr ⟨h, .inr rfl⟩
    | 2, _ => exact .inl rfl
  · exact .inl rfl

/-! ### One step -/

/-- A step idles on an empty queue and otherwise runs the front command on the state with the queue's rest. -/
theorem step_cases {s t : State} (h : step s = .next t) :
    (s.pending = [] ∧ t = s) ∨ ∃ c rest, s.pending = c :: rest ∧ exec c (s.withQueue rest) = .next t := by
  unfold step at h
  split at h
  · cases h; exact .inl ⟨‹_›, rfl⟩
  · exact .inr ⟨_, _, ‹_›, h⟩

end Sys2Proof.Machine
end

