-- ==== Sys2Proof/WellFormed.lean ====
section
/-! DEFINITION. What a command's operands must be beyond their types. The meanings do not depend on it. -/

namespace Sys2Proof

/-- The loader reads bytes 0 to 17 and no further (R165). A message holds whole bytes of which the line can carry any
number, so the only other bound is that something was read between the start of a message and its end (R62). -/
def Instr.wellFormed : Instr → Bool
  | .configurationComplete (some bytes) => bytes.length ≤ 18
  | .messageReceived (some bytes) => bytes ≠ []
  | .configurationComplete none => true
  | .messageReceived none => true
  | .reset => true
  | .pixelWord _ => true
  | .commandWord _ => true
  | .unknownCommand _ => true
  | .setColors _ => true
  | .setPointerRow _ => true
  | .movePointer _ => true
  | .pointerVisibility _ => true
  | .withdraw _ => true
  | .readTarget _ => true
  | .status _ => true
  | .rejoin _ => true
  | .recordSent => true
  | .lineStart => true
  | .naturalFrameEnd => true
  | .seekGap => true
  | .idleGap => true
  | .driveStartPulse => true
  | .startPulse => true
  | .originField _ => true
  | .markSlot _ => true
  | .mark _ => true
  | .sendSelection => true
  | .reservationField _ => true
  | .fieldFault => true
  | .transmit => true
  | .readbackMismatch => true
  | .messageAborted => true
  | .slotVacant => true
  | .dominantLevel => true

end Sys2Proof
end

