-- ==== Sys2Proof/Tests/Slice0.lean ====
section
/-! SUPPORT. Tests of the commands against values of the spec (the rule or section of each expected value stands beside
it), and for each statement a concrete state and operands that meet its hypotheses. -/

namespace Sys2Proof.Tests

open Sys2Proof.Machine Sys2Proof.Safety

-- One thread for the tests: many kernel evaluations side by side would exceed the build's memory limit.
set_option Elab.async false

/-! ### Small states -/

/-- A record at the limits of R165: rank 2, K = 8, S = 2K + 2, lock window = T - A. -/
def settings : Settings :=
  { rank := 2, originX := 100, originY := 200, width := 64, totalLines := 100, activeLines := 80, format := .index
    auditInterval := 8, silenceLimit := 18, slewLimit := 2, lockWindow := 20 }

/-- The eighteen bytes of that record; their sum is A7h + 2 + 100 + 200 + 64 + 100 + 80 + 8 + 18 + 2 + 20 = 761, which is
F9h modulo 256. -/
def record : List Byte := [0xA7, 2, 0, 100, 0, 200, 0, 64, 0, 100, 0, 80, 0, 8, 18, 2, 20, 0xF9]

/-- A configured station in a state whose epoch is unknown. -/
def placed (state : StationState) : State :=
  { State.reset with
    loader := ⟨some settings⟩
    station := ⟨state, 0⟩
    timer := ⟨true, 0, none, false, .waiting, none⟩
    bus := { BusController.reset with round := .seeking } }

/-- The entry of a rank heard at epoch 43. -/
def heardAs (state : Reported) : Peer := ⟨.present, some state, some 43, .none, false⟩

/-- A station that follows a wall in an active state, at epoch 43. -/
def member (state : StationState) (reported : Reported) : State :=
  let s := placed state
  { s with
    timer := { s.timer with epoch := some 43 }
    store := { s.store with staging := true }
    members := { s.members with table := s.members.table.set 2 (heardAs reported) } }

/-- An IN STEP member. -/
def inStep : State := member .inStep .inStep

/-- The fields of a round, at one of them. -/
def atField (field : FieldPosition) (s : State) : State :=
  { s with bus := { s.bus with round := .fields, field := field, driving := s.active } }

/-- The data phase of a round, at the slot of the first of the scheduled ranks. -/
def atSlot (schedule : List Rank) (s : State) : State :=
  { s with bus := { s.bus with round := .data, schedule := schedule, driving := s.active } }

/-- The station holds a chosen message. -/
def choosing (kind : MessageKind) (s : State) : State := { s with bus := { s.bus with chosen := some kind } }

/-- The station transmits a message of a body. -/
def transmitting (body : Body) (s : State) : State :=
  { s with bus := { s.bus with chosen := some body.kind, drive := .message ⟨2, .inStep, 43, body⟩ } }

/-- The line counter and the frame phase. -/
def atLine (n : Nat) (phase : FramePhase) (s : State) : State :=
  { s with timer := { s.timer with line := n, phase := phase } }

/-- A head word (R170). -/
def headWord (kind tag length : Nat) : Word := BitVec.ofNat 32 (kind * 16777216 + tag * 262144 + length)

/-- A command of which all words but the last have come. -/
def awaiting (kind tag length : Nat) (args : List Word) (s : State) : State :=
  { s with port := { s.port with assembly := some ⟨headWord kind tag length, args⟩ } }

/-- An item for the palette slot 5. -/
def anItem : Item := .setSlot 5 ⟨1, 2, 3⟩

/-- A proposal queue of `n` items of one account. -/
def queued (n : Nat) (s : State) : State :=
  { s with
    command :=
      { s.command with queue := List.replicate n ⟨anItem, 7⟩, accounts := [⟨7, n, 0, 0, none⟩] } }

/-- What a test reads of the state a command leads to; `none` where it stops. -/
def after {α : Type} (c : Instr) (s : State) (read : State → α) : Option α :=
  match exec c s with
  | .next t => some (read t)
  | .fault _ => none
  | .refused _ => none

/-- The records queued, without their stamps. -/
def records (s : State) : List Record := s.port.reports.map Stamped.record

/-! ### Well-formedness -/

theorem test_wellFormed_refuses_nineteen_bytes :
    (Instr.configurationComplete (some (record ++ [0]))).wellFormed = false := by decide

theorem test_wellFormed_refuses_empty_message : (Instr.messageReceived (some [])).wellFormed = false := by decide

theorem test_wellFormed_takes_the_record : (Instr.configurationComplete (some record)).wellFormed = true := by decide

/-- The table gives no bits (log 14). -/
theorem test_table_words_spell_nothing : decodeTableWord 32 0x01000000 = none := by decide

/-! ### Formats -/

/-- R5 is the 32-bit CRC whose check value over the digits 1 to 9 is published as FC891918h. -/
theorem test_crc32_check_value :
    crc32 [0x31, 0x32, 0x33, 0x34, 0x35, 0x36, 0x37, 0x38, 0x39] = 0xFC891918#32 := by decide +kernel

/-- R61 is the 16-bit CRC whose check value over the digits 1 to 9 is published as 29B1h. -/
theorem test_crc16_check_value :
    crc16 [0x31, 0x32, 0x33, 0x34, 0x35, 0x36, 0x37, 0x38, 0x39] = 0x29B1#16 := by decide +kernel

/-- R167 and R168, byte by byte: an UPDATE of rank 2, IN STEP, at epoch 43, with SET SLOT 257 and SET VISIBILITY. -/
theorem test_message_layout :
    (Message.bytes ⟨2, .inStep, 43, .update [.setSlot 257 ⟨1, 2, 3⟩, .setVisibility .shown]⟩).take 12 =
      [0x01, 0x22, 0, 43, 7, 0x01, 0x01, 1, 2, 3, 0xC0, 0x01] := by decide +kernel

/-- R171: ACCEPTED with tag 5 and stamp 3. -/
theorem test_record_layout : Stamped.words ⟨.accepted 5, 3⟩ = [0x101030001#33, 0x100000005#33] := by decide +kernel

/-- R171: the cue of blank line 576 and the frame cue. -/
theorem test_cue_layout : (⟨576, false⟩ : Cue).word = 576#33 ∧ (⟨0, true⟩ : Cue).word = 0x1000#33 := by decide +kernel

/-! ### Lifecycle -/

/-- R124 and section 8.2. -/
theorem test_reset_stops_everything :
    after .reset (transmitting .resyncDone (atSlot [2] inStep)) (fun t => (t.station, t.bus.drive, t.timer.epoch)) =
      some (⟨.configuring, 0⟩, .recessive, none) := by decide +kernel

/-- R125. -/
theorem test_configuration_starts_listening :
    after (.configurationComplete (some record)) .reset
        (fun t => (t.loader.config, t.station.state, t.port.cue, t.bus.round)) =
      some (some settings, .listening, some ⟨0, true⟩, .seeking) := by decide +kernel

/-- R166: a record with an 18-byte read and a wrong check byte. -/
theorem test_configuration_bad_check :
    after (.configurationComplete (some (record.set 17 0xF8))) .reset (fun t => (t.station.state, records t)) =
      some (.configFault, [.event (.configFault .badCheck)]) := by decide +kernel

/-! ### The source port -/

/-- R157, R170: an INDEX pixel word takes bits 7 to 0. -/
theorem test_pixel_word_fills :
    after (.pixelWord 0xFFFFFF09) (placed .listening) (fun t => t.pixel.fill) = some [.index 9] := by decide +kernel

/-- R139: a pixel word refuses the incomplete command with its tag. -/
theorem test_pixel_word_ends_a_command :
    after (.pixelWord 1) (awaiting 3 9 1 [] .reset) (fun t => (t.port.assembly, records t)) =
      some (none, [.refused 9 .malformed]) := by decide +kernel

/-- R139. -/
theorem test_command_word_is_held :
    after (.commandWord (headWord 3 9 1)) .reset (fun t => t.port.assembly) = some (some ⟨headWord 3 9 1, []⟩) := by
  decide +kernel

/-- R140: kind 9 is none of the eight. -/
theorem test_unknown_command_is_malformed :
    after (.unknownCommand (headWord 9 4 0)) .reset records = some [.refused 4 .malformed] := by decide +kernel

/-- R142's example: SET COLORS 12, 3 with tag 4. -/
theorem test_setColors_example :
    after (.setColors 0x000000FF) (awaiting 1 4 4 [0x000C0003, 0x00FF0000, 0x0000FF00] inStep)
        (fun t => (t.command.queue.map QueuedItem.item, records t)) =
      some ([.setSlot 12 ⟨255, 0, 0⟩, .setSlot 13 ⟨0, 255, 0⟩, .setSlot 14 ⟨0, 0, 255⟩], [.accepted 4]) := by
  decide +kernel

/-- R142: SET COLORS 258, 3 would reach slot 260. -/
theorem test_setColors_run_past_the_last_slot :
    after (.setColors 0) (awaiting 1 5 4 [0x01020003, 0, 0] inStep) (fun t => (t.command.queue, records t)) =
      some ([], [.refused 5 .range]) := by decide +kernel

/-- R143's example: row 7, codes 1 for columns 12 to 19, with tag 11. -/
theorem test_setPointerRow_example :
    after (.setPointerRow 0x55000000) (awaiting 2 11 3 [7, 0x00000055] inStep)
        (fun t => t.command.queue.map fun q => match q.item with
          | .setRow r codes => (r.val, (List.finRange 32).filter fun c => rowCode codes c = 1)
          | _ => (0, [])) =
      some [(7, [12, 13, 14, 15, 16, 17, 18, 19])] := by decide +kernel

/-- R144's example: MOVE POINTER 1920, 540 with tag 20. -/
theorem test_movePointer_example :
    after (.movePointer 0x0780021C) (awaiting 3 20 1 [] inStep) (fun t => t.command.queue) =
      some [⟨.setPosition ⟨1920, 540⟩, 20⟩] := by decide +kernel

/-- R140 and section 9.2: an out-of-range item-making command is NOT ACTIVE while MUTED. -/
theorem test_movePointer_muted :
    after (.movePointer 0x80000000) (awaiting 3 7 1 [] (placed .muted)) records = some [.refused 7 .notActive] := by
  decide +kernel

/-- R145. -/
theorem test_pointerVisibility_shows :
    after (.pointerVisibility 1) (awaiting 4 8 1 [] inStep) (fun t => t.command.queue) =
      some [⟨.setVisibility .shown, 8⟩] := by decide +kernel

/-- R81: the batch of four stays, the two items behind it leave. -/
theorem test_withdraw_keeps_the_batch :
    let s := queued 6 inStep
    after (.withdraw (headWord 5 3 0)) { s with command := { s.command with inFlight := 4 } }
        (fun t => (t.command.queue.length, t.command.withdrawMark, t.command.accounts, records t)) =
      some (4, true, [⟨7, 6, 0, 2, none⟩], [.accepted 3]) := by decide +kernel

/-- R147, R3: after reset every target holds its default. -/
theorem test_readTarget_at_reset :
    after (.readTarget 293) (awaiting 6 2 1 [] .reset) records = some [.value 2 (.setVisibility .hidden)] := by
  decide +kernel

/-- R147: target 294 does not exist. -/
theorem test_readTarget_range :
    after (.readTarget 294) (awaiting 6 2 1 [] .reset) records = some [.refused 2 .range] := by decide +kernel

/-- R148: before configuration STATUS reports no rank. -/
theorem test_status_has_no_rank :
    after (.status (headWord 7 63 0)) .reset
        (fun t => t.port.reports.map fun r => match r.record with
          | .status tag f => (tag, f.rank, f.membership.length)
          | _ => (0, none, 0)) =
      some [(63, none, 16)] := by decide +kernel

/-- R134: ACCEPTED, then the SETTLED records of the drop. -/
theorem test_rejoin_settles_the_queue :
    after (.rejoin (headWord 8 1 0)) (queued 6 inStep) (fun t => (t.station.state, t.timer.epoch, records t)) =
      some (.listening, none, [.accepted 1, .settled 7 0 6 none]) := by decide +kernel

/-- R152: the head record leaves as its words. -/
theorem test_recordSent_sends_the_head :
    let s := State.reset
    after .recordSent { s with port := { s.port with reports := [⟨.accepted 5, 3⟩] } }
        (fun t => (t.port.reports, t.port.sentWords)) =
      some ([], [0x101030001#33, 0x100000005#33]) := by decide +kernel

/-! ### Lines and frames -/

/-- R34, R35: line A is a blank line. -/
theorem test_lineStart_cues_the_blank :
    after .lineStart (atLine 79 .waiting (placed .listening)) (fun t => (t.timer.line, t.port.cue)) =
      some (80, some ⟨80, false⟩) := by decide +kernel

/-- R24, R26: the blank start applies the PENDING generation. -/
theorem test_lineStart_applies :
    let s := atLine 79 .waiting inStep
    after .lineStart { s with store := { s.store with closed := some ⟨[anItem], 43, -3⟩ } }
        (fun t => (t.store.wall.item (.slot 5), t.store.closed, (records t).getLast?)) =
      some (anItem, none, some (.epoch 43 1 false (-3))) := by decide +kernel

/-- R36: a frame end found COVERED is absorbed. -/
theorem test_frameEnd_absorbed :
    after .naturalFrameEnd (atLine 99 .covered inStep) (fun t => (t.timer.phase, t.timer.markPending)) =
      some (.waiting, false) := by decide +kernel

/-- R129: the S-th natural frame end founds. -/
theorem test_frameEnd_founds :
    let s := atLine 99 .waiting (placed .listening)
    after .naturalFrameEnd { s with station := ⟨.listening, 17⟩ }
        (fun t => (t.station, t.timer.epoch, t.timer.markPending, t.store.staging)) =
      some (⟨.inStep, 0⟩, some 0, true, true) := by decide +kernel

/-! ### Rounds -/

/-- R51. -/
theorem test_seekGap_finds_the_idle_line :
    after .seekGap (placed .listening) (fun t => t.bus.round) = some .idle := by decide +kernel

/-- R51. -/
theorem test_idleGap_ends_the_gap :
    let s := inStep
    after .idleGap { s with bus := { s.bus with round := .gap } } (fun t => t.bus.round) = some .idle := by decide +kernel

/-- R52: mark pending is a start reason. -/
theorem test_driveStartPulse_drives :
    let s := inStep
    after .driveStartPulse
        { s with bus := { s.bus with round := .idle }, timer := { s.timer with markPending := true } }
        (fun t => t.bus.drive) =
      some .startPulse := by decide +kernel

/-- R51, R57: an active station follows and drives the round. -/
theorem test_startPulse_opens_the_round :
    after .startPulse inStep (fun t => (t.bus.round, t.bus.field, t.bus.driving)) = some (.fields, .origin, true) := by
  decide +kernel

/-- R53: the beliefs 15 and 5 give the origin 5. -/
theorem test_originField_is_a_wired_and :
    after (.originField 5) (atField .origin inStep) (fun t => t.bus.belief) = some 5 := by decide +kernel

/-- R54: nobody asks for a mark. -/
theorem test_markSlot_without_a_mark :
    after (.markSlot .recessive) (atField .markSlot inStep) (fun t => t.bus.field) = some .reservation := by decide +kernel

/-- R39 and its example: 44 driven here, 43 elsewhere, 40 adopted; EPOCH SLIP (43, 40). -/
theorem test_mark_wired_and :
    after (.mark 43) (atLine 0 .ended (atField .epoch inStep)) (fun t => (t.timer.epoch, records t)) =
      some (some 40, [.event (.epochSlip 43 40)]) := by decide +kernel

/-- The station of the example "How a follower settles" (section 3.4), about to sample a mark at a line. -/
def follower (line : Nat) : State :=
  let s := atLine line .waiting (atField .epoch inStep)
  { s with
    loader :=
      ⟨some { settings with totalLines := 625, activeLines := 576, slewLimit := 8, lockWindow := 48 }⟩ }

/-- The table of that example, row by row. -/
theorem test_mark_settles_a_follower :
    [605, 610, 615, 620, 622].map (fun n =>
        after (.mark 0xFFFF) (follower n) (fun t => (t.timer.lastOffset, t.timer.line, t.timer.phase))) =
      [some (some (-20), 613, .covered), some (some (-15), 618, .covered), some (some (-10), 623, .covered),
        some (some (-5), 0, .waiting), some (some (-3), 0, .waiting)] := by decide +kernel

/-- R74: a queue of items and nothing else gives an UPDATE. -/
theorem test_sendSelection_takes_the_queue :
    after .sendSelection (queued 6 (atField .reservation inStep)) (fun t => (t.bus.chosen, t.command.inFlight)) =
      some (some .update, 4) := by decide +kernel

/-- R74, R107: a request that entering repair made pending is chosen before the items of the queue. -/
theorem test_sendSelection_request_first :
    let s := atField .reservation (queued 6 (member .diverged .diverged))
    after .sendSelection { s with resync := s.resync.enterRepair } (fun t => (t.bus.chosen, t.command.inFlight)) =
      some (some .resyncRequest, 0) := by decide +kernel

/-- Section 4.4, "A round in full": origin 5 and the bits of 2, 5 and 12 give the schedule 5, 12, 2. -/
theorem test_reservationField_schedule :
    let s := atField .reservation inStep
    after (.reservationField 0xEFDB) { s with bus := { s.bus with belief := 5 } } (fun t => t.bus.schedule) =
      some [5, 12, 2] := by decide +kernel

/-- R57: the bit of rank 0 is sent first, so a REJOIN after the send selection finds it driven, whatever the free choice. -/
theorem test_rejoin_finds_the_first_bit_driven (n : Nat) : (lowBits (1 + n) 0xFFFE).getLsbD 0 = false := by
  rw [lowBits_getLsbD _ _ (by decide)]; simp

/-- R57, R65: a bit driven before a REJOIN is read, and its slot is scheduled. -/
theorem test_reservationField_with_a_bit_left :
    let s := atField .selected (placed .listening)
    after (.reservationField 0xFFFF) { s with bus := { s.bus with partDriven := 0xFFFB } }
        (fun t => (t.bus.schedule, t.bus.partDriven)) =
      some ([2], 0xFFFF) := by decide +kernel

/-- R68. -/
theorem test_fieldFault_diverges :
    after .fieldFault (atField .markSlot inStep) (fun t => (t.station.state, t.bus.round, records t)) =
      some (.diverged, .seeking, [.event (.diverged .receiveError)]) := by decide +kernel

/-! ### Slots -/

/-- R59. -/
theorem test_transmit_sends_the_chosen :
    after .transmit (choosing .resyncDone (atSlot [2] inStep)) (fun t => t.bus.drive) =
      some (.message ⟨2, .inStep, 43, .resyncDone⟩) := by decide +kernel

/-- R63, R77: at the mismatch the abort pattern is driven; the message is held until the slot ends. -/
theorem test_readbackMismatch_drives_the_abort_pattern :
    after .readbackMismatch (transmitting .resyncDone (atSlot [2] inStep))
        (fun t => (t.bus.drive, t.bus.chosen, t.bus.aborts)) =
      some (.abortPattern, some .resyncDone, 0) := by decide +kernel

/-- R59, R64: the eighth abort mutes, when the slot ends. -/
theorem test_messageAborted_mutes :
    let s := choosing .resyncDone (atSlot [2] inStep)
    after .messageAborted { s with bus := { s.bus with aborts := 7, drive := .abortPattern } }
        (fun t => (t.station.state, t.bus.aborts, t.bus.round)) =
      some (.muted, 8, .gap) := by decide +kernel

/-- R60, section 4.4: the last scheduled rank was 2, so the belief is 3. -/
theorem test_slotVacant_ends_the_round :
    after .slotVacant (atSlot [2] (placed .listening)) (fun t => (t.bus.round, t.bus.belief)) = some (.gap, 3) := by
  decide +kernel

/-- R58, R62: an aborted message moves on to the next slot. -/
theorem test_messageAborted_moves_on :
    after .messageAborted (atSlot [5, 2] inStep) (fun t => (t.bus.slot, t.station.state)) = some (1, .inStep) := by
  decide +kernel

/-- R88, R19, R21: the header of rank 5 and its item. -/
theorem test_messageReceived_stages :
    after (.messageReceived (some (Message.bytes ⟨5, .inStep, 43, .update [anItem]⟩))) (atSlot [5] inStep)
        (fun t => (t.store.opened, records t)) =
      some ([anItem], [.event (.peerFound 5)]) := by decide +kernel

/-- R67: a message with one damaged bit makes an IN STEP station DIVERGED. -/
theorem test_messageReceived_damaged :
    after (.messageReceived (some ((Message.bytes ⟨5, .inStep, 43, .update [anItem]⟩).set 9 0xFF))) (atSlot [5] inStep)
        (fun t => (t.station.state, t.store.opened)) =
      some (.diverged, []) := by decide +kernel

/-- R65: the station that rejoined discards the message it aborted, so its own rank in it does not mute it. -/
theorem test_messageReceived_after_rejoin :
    let s := atSlot [2] (placed .listening)
    after (.messageReceived (some (Message.bytes ⟨2, .inStep, 43, .resyncDone⟩)))
        { s with bus := { s.bus with drive := .abortPattern } } (fun t => (t.station.state, t.bus.round, records t)) =
      some (.listening, .gap, []) := by decide +kernel

/-- R51: a dominant level starts the recessive count anew. -/
theorem test_dominantLevel_restarts_the_count :
    let s := inStep
    after .dominantLevel { s with bus := { s.bus with round := .idle, recessive := .idleGap } }
        (fun t => (t.bus.round, t.bus.recessive)) =
      some (.idle, .below) := by decide +kernel

/-- R161: the pointer covers, code 0 shows the pixel below it; an UNFILLED entry is the backdrop, slot 256. -/
theorem test_video_output :
    let s := inStep
    let s := { s with pixel := { s.pixel with shown := [.index 5] } }
    let s := { s with store := { s.store with wall := s.store.wall.write anItem } }
    s.videoOut 0 = some ⟨1, 2, 3⟩ ∧ s.videoOut 1 = some ⟨0, 0, 0⟩ ∧ s.videoOut 64 = none := by decide +kernel

/-! ### Witnesses

Each theorem meets the hypotheses of the statement it is named after, clause by clause, at a boundary where there is one. -/

theorem witness_StepRunsFrontCommand : State.reset.pending = [] := rfl

theorem witness_ConfigurationTakesEffect :
    State.reset.station.state = .configuring ∧ validate (some record) = .valid settings ∧
      validate (some (record.take 17)) = .fault .noRecord ∧ validate (some (record.set 17 0)) = .fault .badCheck ∧
      validate (some ((record.set 16 21).set 17 0xFA)) = .fault .range ∧
      (placed .listening).station.state ≠ .configuring := by decide +kernel

theorem witness_PixelWordFillsOrIsDiscarded :
    (placed .listening).port.assembly = none ∧ (placed .listening).loader.config = some settings ∧
      (placed .listening).timer.running = true ∧ State.reset.port.assembly = none ∧
      State.reset.timer.running = false ∧ (awaiting 3 9 1 [] .reset).port.assembly = some ⟨headWord 3 9 1, []⟩ := by
  decide +kernel

theorem witness_CommandWordsAreAssembled :
    State.reset.port.assembly = none ∧ 0 < low8 (headWord 3 9 1) ∧
      (awaiting 2 9 3 [0] .reset).port.assembly = some ⟨headWord 2 9 3, [0]⟩ ∧
      [(0 : Word)].length + 1 < low8 (headWord 2 9 3) ∧ (0x103240001#33 : LaneWord).getLsbD 32 = true := by
  decide +kernel

theorem witness_RefusalsInOrder_malformed :
    Completes State.reset (headWord 9 4 0) 9 4 [] ∧ refusal .reset 9 [] = some .malformed ∧
      Completes inStep (headWord 2 4 0) 2 4 [] ∧ refusal inStep 2 [] = some .malformed := by decide +kernel

theorem witness_RefusalsInOrder_notActive :
    let s := awaiting 3 7 1 [] (placed .muted)
    Completes s 0x80000000 3 7 [0x80000000] ∧ refusal s 3 [0x80000000] = some .notActive := by decide +kernel

theorem witness_RefusalsInOrder_range :
    let s := awaiting 3 7 1 [] (queued 32 inStep)
    Completes s 0x80000000 3 7 [0x80000000] ∧ refusal s 3 [0x80000000] = some .range := by decide +kernel

theorem witness_RefusalsInOrder_queueFull :
    let s := awaiting 3 7 1 [] (queued 32 inStep)
    Completes s 1 3 7 [1] ∧ refusal s 3 [1] = some .queueFull := by decide +kernel

/-- Slot 259, and the last free place of the queue. -/
theorem witness_ItemCommandsAreAccepted_colours :
    let s := awaiting 1 5 2 [0x01030001] (queued 31 inStep)
    let args : List Word := [0x01030001, 9]
    Completes s 9 1 5 args ∧ refusal s 1 args = none ∧ [Item.setSlot 259 ⟨0, 0, 9⟩].length = low8 (args.headD 0) ∧
      ∀ (k : Nat) (colour : Word), args[k + 1]? = some colour →
        ∃ h : high16 (args.headD 0) + k < 260,
          [Item.setSlot 259 ⟨0, 0, 9⟩][k]? = some (.setSlot ⟨high16 (args.headD 0) + k, h⟩
            ⟨BitVec.ofNat 8 (colour.toNat / 65536), BitVec.ofNat 8 (colour.toNat / 256),
              BitVec.ofNat 8 colour.toNat⟩) := by
  refine ⟨by decide +kernel, by decide +kernel, by decide, ?_⟩
  intro k colour h
  match k with
  | 0 =>
    have : colour = 9 := by simpa using h.symm
    subst this
    exact ⟨by decide, by decide +kernel⟩
  | k + 1 => simp at h

theorem witness_ItemCommandsAreAccepted_row :
    let s := awaiting 2 6 3 [31, 1] inStep
    low8 (31 : Word) < 32 ∧ Completes s 2 2 6 [31, 1, 2] ∧ refusal s 2 [31, 1, 2] = none := by decide +kernel

theorem witness_ItemCommandsAreAccepted_position :
    let s := awaiting 3 7 1 [] inStep
    Completes s 0x7FFF7FFF 3 7 [0x7FFF7FFF] ∧ refusal s 3 [0x7FFF7FFF] = none := by decide +kernel

theorem witness_ItemCommandsAreAccepted_visibility :
    let s := awaiting 4 8 1 [] inStep
    Completes s 1 4 8 [1] ∧ refusal s 4 [1] = none := by decide +kernel

theorem witness_WithdrawRemovesTheRest : Completes (queued 6 inStep) (headWord 5 3 0) 5 3 [] := by decide +kernel

theorem witness_AccountsShareTheItems :
    [(⟨7, 6, 0, 0, none⟩ : Account), ⟨8, 2, 0, 1, none⟩][1]? = some ⟨8, 2, 0, 1, none⟩ := by decide

theorem witness_ReadTargetAnswersTheValue :
    Completes (awaiting 6 2 1 [] .reset) 293 6 2 [293] ∧ low16 293 = Target.visibility.number ∧
      Completes (awaiting 6 2 1 [] .reset) 294 6 2 [294] ∧ 293 < low16 294 := by decide +kernel

theorem witness_StatusReportsEveryField : Completes State.reset (headWord 7 63 0) 7 63 [] := by decide +kernel

/-- Refused, outside a round, and at the first bit of the reservation field. -/
theorem witness_RejoinRestartsTheStation :
    let s := choosing .resyncDone (atField .selected inStep)
    (Completes s (headWord 8 1 0) 8 1 [] ∧ Drives s ∧ s.bus.round = .fields ∧ s.station.state = .inStep) ∧
      Completes State.reset (headWord 8 1 0) 8 1 [] ∧ State.reset.station.state = .configuring ∧
      Completes inStep (headWord 8 1 0) 8 1 [] ∧ inStep.station.state ≠ .configuring ∧
      inStep.station.state ≠ .configFault := by decide +kernel

/-- A port with `n` records and an omitted count. -/
def portOf (n omitted : Nat) : SourcePort :=
  { SourcePort.reset with reports := List.replicate n ⟨.accepted 1, 0⟩, omitted := omitted }

theorem witness_RecordsAreQueuedOmittedAndSent :
    (portOf 15 0).reports.length < 16 ∧ ((portOf 16 254).reports.length = 16 ∧ (portOf 16 254).omitted < 255) ∧
      ((portOf 16 255).reports.length = 16 ∧ (portOf 16 255).omitted = 255) ∧
      (portOf 1 0).reports = [⟨.accepted 1, 0⟩] ∧ State.reset.port.reports = [] := by decide +kernel

/-- Each field at its largest value: the stamp, the counts, the written targets, the summaries and the line. -/
theorem witness_RecordWordsFollowTheLayout :
    (⟨.event .founded, 255⟩ : Stamped).omitted ≤ 255 ∧ FitsTheLayout (.settled 63 8 0 (some 65535)) ∧
      FitsTheLayout (.epoch 65535 294 true (-4095)) ∧ FitsTheLayout (.status 63 inStep.statusFields) ∧
      FitsTheLayout (.value 63 (.setVisibility .shown)) ∧ FitsTheLayout (.event (.sourceLong 4095)) ∧ 4095 ≤ 4095 :=
  ⟨by decide, by simp [FitsTheLayout], by simp [FitsTheLayout], by simp only [FitsTheLayout]; decide +kernel,
    by simp [FitsTheLayout], by simp [FitsTheLayout], by decide⟩

theorem witness_ReportsDecideNothing :
    ∃ t t', (portOf 16 255).assembly = inStep.port.assembly ∧ exec .fieldFault (atField .origin inStep) = .next t ∧
      exec .fieldFault { atField .origin inStep with port := portOf 16 255 } = .next t' :=
  ⟨_, _, rfl, rfl, rfl⟩

theorem witness_LinesBeginByCounting :
    inStep.loader.config = some settings ∧
      ((atLine 79 .waiting inStep).timer.running = true ∧ (79 + 1 < settings.totalLines) ∧
        (79 + 1 = settings.activeLines → (atLine 79 .waiting inStep).store.closed = none)) ∧
      (atLine 99 .waiting inStep).timer.line + 1 = settings.totalLines ∧
      ({ placed .listening with timer := EpochTimer.reset } : State).timer.running = false := by decide +kernel

theorem witness_BlankStartAppliesTheGeneration :
    let s := atLine 79 .waiting inStep
    let g : ClosedGeneration := ⟨[anItem], 43, -3⟩
    let s := { s with store := { s.store with closed := some g } }
    s.loader.config = some settings ∧ s.timer.running = true ∧ s.timer.line + 1 < settings.totalLines ∧
      s.timer.line + 1 = settings.activeLines ∧ s.store.closed = some g ∧ CanonicalGeneration g.items ∧
      DigestFollowsWall s :=
  ⟨rfl, rfl, by decide +kernel, by decide +kernel, rfl, by decide +kernel,
    by simp [atLine, inStep, member, placed, State.reset, WallStore.reset, defaultDigest]⟩

theorem witness_FrameEndsMoveThePhase :
    let s := { atLine 99 .ended (placed .listening) with station := ⟨.listening, 16⟩ }
    s.loader.config = some settings ∧ s.timer.running = true ∧ s.timer.line + 1 = settings.totalLines ∧
      (s.station.state = .listening → s.station.listenCount + 1 < settings.silenceLimit) := by decide +kernel

theorem witness_FoundingTakesEpochZero :
    let s := { atLine 99 .ended (placed .listening) with station := ⟨.listening, 17⟩ }
    s.loader.config = some settings ∧ s.timer.running = true ∧ s.timer.line + 1 = settings.totalLines ∧
      s.station.state = .listening ∧ s.station.listenCount + 1 = settings.silenceLimit := by decide +kernel

/-- An IN STEP station in a round state outside a round. -/
def outside (round : RoundState) : State := { inStep with bus := { inStep.bus with round := round } }

theorem witness_GapsAndPulsesMoveTheRound :
    (outside .gap).bus.round = .gap ∧ (outside .idle).bus.round = .idle ∧
      ((outside .seeking).bus.round ≠ .gap ∧ (outside .seeking).bus.round ≠ .idle) ∧
      (outside .seeking).bus.round = .seeking ∧ (atField .origin inStep).bus.round = .fields ∧
      (atSlot [2] inStep).bus.round = .data := by decide +kernel

theorem witness_FieldsAreWiredAnds :
    (atField .origin inStep).bus.round = .fields ∧ (atField .origin inStep).bus.field = .origin ∧
      (atField .markSlot inStep).bus.round = .fields ∧ (atField .markSlot inStep).bus.field = .markSlot := by
  decide +kernel

theorem witness_SendSelectionTakesTheFirstCandidate :
    let s := atField .reservation (queued 5 inStep)
    let muted := atField .reservation (placed .muted)
    let diverged := atField .reservation (member .diverged .diverged)
    let diverged := { diverged with resync := diverged.resync.enterRepair }
    (s.bus.round = .fields ∧ s.bus.field = .reservation ∧ Drives s) ∧
      (diverged.bus.round = .fields ∧ diverged.bus.field = .reservation ∧ Drives diverged) ∧
      (muted.bus.round = .fields ∧ muted.bus.field = .reservation ∧ ¬Drives muted) := by decide +kernel

theorem witness_ReservationsMakeTheSchedule :
    let s := choosing .resyncDone (atField .selected inStep)
    let unselected := atField .reservation inStep
    (s.bus.round = .fields ∧ s.bus.field = .selected ∧ ∀ r : Rank, (0xFFFB#16).getLsbD r.toNat = ownReservation s r) ∧
      (unselected.bus.round = .fields ∧ unselected.bus.field = .reservation ∧
        ∀ r : Rank, (0xFFFF#16).getLsbD r.toNat = ownReservation unselected r) := by decide +kernel

theorem witness_FieldFaultsDropOut : (choosing .update (atField .selected inStep)).bus.round = .fields := by decide

/-- A station whose own slot opens with a chosen message. -/
def opening (kind : MessageKind) : State := choosing kind (atSlot [2] inStep)

theorem witness_TransmissionBuildsTheMessage :
    let s := opening .block
    let body := Body.block 0 43 ((blockTargets 0).map s.store.wall.item)
    (s.bus.round = .data ∧ s.bus.schedule[s.bus.slot]? = some 2 ∧ s.loader.config.map Settings.rank = some 2) ∧
      (Drives s ∧ s.bus.drive = .recessive ∧ s.bus.chosen = some .block ∧
        s.station.state.reported = some .inStep ∧ s.timer.epoch = some 43) ∧
      BodyFor s .block 43 body ∧ (atSlot [2] inStep).bus.chosen = none :=
  ⟨by decide +kernel, by decide +kernel, rfl, rfl⟩

/-- The other body that depends on the state of its block: a digest AUDIT. -/
theorem witness_TransmissionBuildsTheMessage_audit :
    let s := opening .audit
    let s :=
      { s with
        members := { s.members with window := some ⟨40, 0⟩, stage := .pending .digest, record := some ⟨40, 9⟩ } }
    BodyFor s .audit 43 (.audit 40 (some 9)) :=
  ⟨_, rfl, Or.inr ⟨rfl, _, rfl, rfl⟩⟩

theorem witness_OutcomesSettleTheBatch :
    (queued 6 inStep).command.withdrawMark = false ∧
      ({ (queued 6 inStep).command with withdrawMark := true } : CommandUnit).withdrawMark = true := by decide +kernel

/-- A station that transmits its RESYNC DONE in its own slot. -/
def sending : State := transmitting .resyncDone (atSlot [2] inStep)

/-- A station whose REJOIN stopped its message (R65). -/
def rejoined : State :=
  let s := atSlot [2] (placed .listening)
  { s with bus := { s.bus with drive := .abortPattern } }

theorem witness_ReadbackMismatchAborts :
    let s := opening .update
    let s := { s with bus := { s.bus with drive := .abortPattern } }
    sending.bus.drive.transmitting ≠ none ∧ inStep.bus.drive.transmitting = none ∧
      (s.bus.round = .data ∧ s.bus.drive = .abortPattern ∧ s.bus.chosen ≠ none ∧
        s.bus.schedule[s.bus.slot]?.isSome ∧
        s.bus.schedule[s.bus.slot]? = s.loader.config.map Settings.rank) := by decide +kernel

theorem witness_SlotsEndInOrder :
    ((atSlot [5] inStep).bus.round = .data ∧ (atSlot [5] inStep).bus.chosen = none) ∧
      ((opening .update).bus.round = .data ∧ (opening .update).bus.chosen ≠ none ∧
        (opening .update).bus.schedule[(opening .update).bus.slot]?.isSome ∧
        (opening .update).bus.schedule[(opening .update).bus.slot]? =
          (opening .update).loader.config.map Settings.rank ∧ (opening .update).bus.drive ≠ .abortPattern) ∧
      inStep.bus.round ≠ .data ∧
      (rejoined.bus.round = .data ∧ rejoined.bus.drive = .abortPattern ∧
        rejoined.bus.schedule[rejoined.bus.slot]?.isSome ∧ rejoined.bus.chosen = none) := by decide +kernel

theorem witness_ReceiveErrorsActByState :
    let s := choosing .update (atSlot [5, 2] inStep)
    s.bus.round = .data ∧ s.bus.schedule[s.bus.slot]? = some 5 ∧ s.bus.drive.transmitting = none ∧
      s.bus.drive ≠ .abortPattern ∧ classify 5 (if s.bus.slotDamaged then none else some [0]) = none ∧
      s.loader.config.map Settings.rank ≠ some 5 := by decide +kernel

theorem witness_MutingTakesEveryEffect :
    inStep.station.state ≠ .muted ∧ (placed .muted).station.state = .muted := by decide +kernel

theorem witness_ValidMessagesAreHandedOn :
    let m : Message := ⟨5, .inStep, 43, .update [anItem]⟩
    let own : Message := ⟨2, .inStep, 43, .resyncDone⟩
    let s := opening .update
    HearsValid (atSlot [5] inStep) m (some m.bytes) ∧
      (s.bus.round = .data ∧ s.bus.schedule[s.bus.slot]? = some own.rank ∧ s.bus.drive.transmitting = none ∧
        s.bus.drive ≠ .abortPattern ∧ s.bus.slotDamaged = false ∧ classify own.rank (some own.bytes) = some own ∧
        s.loader.config.map Settings.rank = some own.rank ∧ (s.station.state = .muted → s.bus.chosen = none)) ∧
      (sending.bus.round = .data ∧ sending.bus.schedule[sending.bus.slot]? = some own.rank ∧
        sending.bus.drive.transmitting = some own) := by decide +kernel

theorem witness_HeadersEnterTheTable :
    (placed .listening).timer.epoch = none ∧ inStep.timer.epoch = some 43 := by decide +kernel

theorem witness_StagingKeepsTheLastItem :
    (Message.body ⟨5, .inStep, 43, .update [anItem, anItem]⟩) = .update [anItem, anItem] ∧
      (placed .listening).store.staging = false ∧ inStep.store.staging = true ∧
      CanonicalGeneration inStep.store.opened := by decide +kernel

theorem witness_AuditsAndRequestsAreTaken :
    (Message.body ⟨5, .inStep, 43, .audit 40 (some 9)⟩) = .audit 40 (some 9) ∧
      (Message.body ⟨5, .joining, 43, .resyncRequest⟩) = .resyncRequest ∧
      (Message.body ⟨5, .inStep, 43, .resyncDone⟩) = .resyncDone := by decide

/-- Block 65, at a JOINING station that holds the other 65 and an IN STEP entry for rank 5. -/
theorem witness_BlocksAreFollowedAndInstalled :
    let s := member .joining .joining
    let s :=
      { s with
        resync := { s.resync with received := (Vector.replicate 66 true).set 65 false }
        members := { s.members with table := s.members.table.set 5 (heardAs .inStep) } }
    let m : Message := ⟨5, .inStep, 43, .block 65 43 [.setPosition ⟨1, 2⟩, .setVisibility .shown]⟩
    m.body.wellFormed = true ∧ DigestFollowsWall s ∧
      (s.station.state = .joining ∧ s.members.table[m.rank.toNat].reported = some .inStep ∧ s.timer.epoch = some 43) ∧
      (∀ k : Fin 66, k = 65 ∨ s.resync.received[k] = true) ∧
      DigestFollowsWall inStep ∧ inStep.station.state ≠ .joining ∧ inStep.station.state ≠ .diverged :=
  ⟨by decide +kernel,
    by simp [member, placed, State.reset, WallStore.reset, defaultDigest],
    by decide +kernel, by decide +kernel,
    by simp [inStep, member, placed, State.reset, WallStore.reset, defaultDigest],
    by decide +kernel, by decide +kernel⟩

theorem witness_CleanOutcomesReachTheirOwners :
    ({ inStep.members with stage := .pending .heartbeat } : Membership).stage = .pending .heartbeat ∧
      ∀ kind, inStep.members.stage ≠ .pending kind :=
  ⟨rfl, fun kind => by cases kind <;> decide⟩

/-- A mark sampled at a line and phase: level with the leader, and behind by the slew limit, by one more, by the lock
window and by one more. -/
theorem witness_MarksCorrectTheTimer :
    ∀ p ∈ [(0, FramePhase.ended), (98, .waiting), (97, .covered), (80, .waiting), (79, .waiting)],
      SamplesMark (atLine p.1 p.2 (atField .epoch inStep)) settings ∧
        (atLine p.1 p.2 (atField .epoch inStep)).timer.line < settings.totalLines ∧ 0 < settings.activeLines := by
  decide +kernel

theorem witness_MarksReportSlipsAndJumps :
    SamplesMark (atLine 79 .waiting (atField .epoch inStep)) settings ∧
      (atLine 79 .waiting (atField .epoch inStep)).timer.line < settings.totalLines := by decide +kernel

/-- With the staging flag OPEN and a PENDING generation, at the first blank line; and with the flag CLOSED. -/
theorem witness_MarksCloseTheGeneration :
    let s := atLine 80 .waiting (atField .epoch inStep)
    let s := { s with store := { s.store with opened := [anItem], closed := some ⟨[anItem], 43, 0⟩ } }
    let first := atField .epoch (placed .listening)
    (SamplesMark s settings ∧ CanonicalGeneration s.store.opened ∧
        (∀ g ∈ s.store.closed, CanonicalGeneration g.items) ∧ DigestFollowsWall s ∧ s.store.staging = true) ∧
      (SamplesMark first settings ∧ CanonicalGeneration first.store.opened ∧
        (∀ g ∈ first.store.closed, CanonicalGeneration g.items) ∧ DigestFollowsWall first ∧
        first.store.staging = false) :=
  ⟨⟨by decide +kernel, by decide +kernel, by decide +kernel,
    by simp [atField, atLine, inStep, member, placed, State.reset, WallStore.reset, defaultDigest], rfl⟩,
    by decide +kernel, by decide +kernel, by decide +kernel,
    by simp [atField, placed, State.reset, WallStore.reset, defaultDigest], rfl⟩

theorem witness_TheFirstMarkMakesAListenerJoin :
    let s := atField .epoch (placed .listening)
    SamplesMark s settings ∧ s.station.state = .listening ∧ EpochSound s := by decide +kernel

theorem witness_SilentPeersAreLost : inStep.loader.config = some settings := by decide +kernel

/-- Two holders against one: the digest 5 is the reference. -/
def tally : Vector (Option Digest) 16 := ((emptyTally.set 1 (some 7)).set 4 (some 5)).set 9 (some 5)

theorem witness_TheMajorityDigestDecides :
    (∀ r : Fin 16, Membership.reset.tally[r] = none) ∧ IsReference tally 5 := by
  refine ⟨by decide +kernel, by decide +kernel, fun d' => ?_⟩
  by_cases h5 : d' = 5
  · subst h5; decide +kernel
  · by_cases h7 : d' = 7
    · subst h7; decide +kernel
    · have none_holds : (List.finRange 16).filter (fun r => tally[r] = some d') = [] := by
        have spread : ∀ r : Fin 16, tally[r] = none ∨ tally[r] = some 7 ∨ tally[r] = some 5 := by decide +kernel
        simp only [List.filter_eq_nil_iff, decide_eq_true_eq]
        intro r _ held
        rcases spread r with h | h | h <;> rw [h] at held
        · cases held
        · exact h7 (Option.some.inj held).symm
        · exact h5 (Option.some.inj held).symm
      beta_reduce
      rw [none_holds]
      exact ⟨Nat.zero_le _, fun _ r held => by cases held⟩

theorem witness_MarksRunTheMembershipUnit :
    (SamplesMark (atField .epoch inStep) settings ∧ (atField .epoch inStep).station.state = .inStep) ∧
      (SamplesMark (atField .epoch (placed .muted)) settings ∧
        (atField .epoch (placed .muted)).station.state = .muted) := by decide +kernel

/-- A JOINING station that has waited for 16 epochs, and for 17. -/
theorem witness_RepairingStationsWaitAndPromote :
    ∀ n ∈ [16, 17],
      let s := atField .epoch (member .joining .joining)
      let s := { s with resync := { s.resync with wait := n } }
      SamplesMark s settings ∧ s.station.state = .joining ∧ s.timer.epoch ≠ none ∧
        (s.resync.epochBlock = false ∧ ∀ r : Fin 16, eligibleEntry s (BitVec.ofFin r) = false) ∧
        s.members.tally[settings.rank.toNat] = none ∧
        (n = 16 → s.resync.wait + 1 < settings.silenceLimit) ∧ (n = 17 → settings.silenceLimit ≤ s.resync.wait + 1) := by
  decide +kernel

/-- One changing command for each of the six. -/
theorem witness_OnlyNamedCommandsWrite :
    let s := atLine 79 .waiting inStep
    let pending := { s with store := { s.store with closed := some ⟨[anItem], 43, 0⟩ } }
    let founding := { atLine 99 .ended (placed .listening) with station := ⟨.listening, 17⟩ }
    let filled := { s with pixel := { s.pixel with fill := [.index 1] } }
    after .lineStart pending (fun t => decide (t.store.wall ≠ pending.store.wall)) = some true ∧
      after .naturalFrameEnd founding (fun t => decide (t.timer.epoch ≠ founding.timer.epoch)) = some true ∧
      after (.configurationComplete (some record)) .reset (fun t => decide (t.loader ≠ State.reset.loader)) = some true ∧
      after (.originField 5) (atField .origin s) (fun t => decide (t.bus.belief ≠ s.bus.belief)) = some true ∧
      after (.rejoin (headWord 8 1 0)) (queued 6 s) (fun t => decide (t.command.queue ≠ (queued 6 s).command.queue)) =
        some true ∧
      after .naturalFrameEnd (atLine 99 .ended filled) (fun t => decide (t.pixel.shown ≠ filled.pixel.shown)) =
        some true := by decide +kernel

theorem witness_StatesChangeByTheTable :
    let s := atField .origin inStep
    BusSound s ∧ TimingSound s ∧ AuditSound s ∧
      ∃ t, exec .fieldFault s = .next t ∧ t.station.state ≠ s.station.state :=
  ⟨by decide +kernel, by decide +kernel, by decide +kernel, _, rfl, by decide +kernel⟩

/-- The last pixel of the last active line, and the three ways to show none. -/
theorem witness_TheOutputFollowsTheState :
    inStep.loader.config = some settings ∧
      ((atLine 79 .waiting inStep).timer.running = true ∧ (atLine 79 .waiting inStep).timer.line < settings.activeLines ∧
        63 < settings.width) ∧
      (placed .joining).station.state = .joining ∧ inStep.station.state = .inStep ∧
      settings.activeLines ≤ (atLine 80 .waiting inStep).timer.line ∧ settings.width ≤ 64 := by decide +kernel

/-- The shortest and the longest UPDATE body of R168: 2 and 40 bytes. -/
theorem witness_MessagesReadBackAsSent :
    (Body.update [.setVisibility .hidden]).wellFormed = true ∧
      (Body.update (List.replicate 4 (.setRow 31 0x123456789ABCDEF0#64))).wellFormed = true := by decide +kernel

theorem witness_ValidMessagesPassEveryTest :
    let m : Message := ⟨5, .diverged, 43, .audit 40 (some 9)⟩
    classify 5 (some m.bytes) = some m := by decide +kernel

/-- An IN STEP station in the fields of a round with a line start to come: every invariant holds and the step is taken. -/
theorem witness_StepsKeep :
    let s := { atField .origin inStep with pending := [.lineStart] }
    (DigestFollowsWall s ∧ GenerationsCanonical s) ∧ (ReportsBounded s ∧ QueueAccounted s) ∧
      (TimingSound s ∧ EpochSound s) ∧ BusSound s ∧ RepairSound s ∧ AuditSound s ∧ ∃ t, step s = .next t :=
  ⟨⟨by simp [atField, inStep, member, placed, State.reset, WallStore.reset, defaultDigest],
    by decide +kernel⟩, by decide +kernel, by decide +kernel, by decide +kernel, by decide +kernel,
    by decide +kernel, _, rfl⟩

end Sys2Proof.Tests
end

section
/-! The lifecycle family (spec/08_station_lifecycle.md): RESET takes every block to its reset value (R124). -/

namespace Sys2Proof.Machine

/-! ### What a reset block holds, entry by entry -/

@[simp] theorem defaultWall_item_slot (slot : Fin 260) :
    defaultWall.item (.slot slot) = .setSlot slot ⟨0, 0, 0⟩ := by
  simp [WallState.item, defaultWall, black]

@[simp] theorem defaultWall_item_row (row : Fin 32) : defaultWall.item (.row row) = .setRow row 0 := by
  simp [WallState.item, defaultWall]

@[simp] theorem WallStore.reset_digest : WallStore.reset.digest = defaultDigest := by
  simp only [WallStore.reset]

@[simp] theorem Membership.reset_table_getElem (r : Fin 16) : Membership.reset.table[r] = Peer.initial := by
  simp [Membership.reset]

@[simp] theorem Membership.reset_tally_getElem (r : Fin 16) : Membership.reset.tally[r] = none := by
  simp [Membership.reset, emptyTally]

@[simp] theorem ResyncUnit.reset_received_getElem (b : Fin 66) : ResyncUnit.reset.received[b] = false := by
  simp [ResyncUnit.reset, noBlocks]

/-! ### RESET -/

/-- No geometry is known without a configuration record, so there is no pixel to show. -/
theorem State.videoOut_of_unconfigured {s : State} (h : s.loader.config = none) (u : Nat) : s.videoOut u = none := by
  simp [State.videoOut, h]

/-- R124: only what is the outside's, the commands waiting and the free choices to come, outlives a reset. -/
theorem exec_reset (s : State) :
    exec .reset s = .next { State.reset with choices := s.choices, pending := s.pending } := rfl

/-- Settles O3: the state after `exec_reset` is read off block by block, the tables of the store, the membership unit and
the resync unit entry by entry, and the video output from the loader being without a record. -/
theorem resetTakesResetValues : Obligations.ResetTakesResetValues := by
  intro s
  refine ⟨_, exec_reset s, ?_⟩
  exact
    ⟨-- the loader, the source port and the command unit
      rfl, rfl, rfl, rfl, rfl,
      -- the wall bus controller and the epoch timer
      rfl, rfl, rfl, rfl, rfl, rfl, rfl, rfl,
      -- the wall state store
      defaultWall_item_slot, defaultWall_item_row, rfl, rfl, WallStore.reset_digest, rfl, rfl, rfl,
      -- the membership unit
      fun r => ⟨Membership.reset_table_getElem r, Membership.reset_tally_getElem r⟩, rfl, rfl, rfl,
      -- the resync unit
      ResyncUnit.reset_received_getElem, rfl, rfl, rfl, rfl, rfl, rfl,
      -- the station controller, the pixel path and the video output
      rfl, rfl, State.videoOut_of_unconfigured rfl⟩

end Sys2Proof.Machine
end

section
/-! The source port's commands (spec/09_the_source_port_commands_and_reports.md): what a complete command does at its
row, the tests of R140 in their order, and READ TARGET (R147). -/

namespace Sys2Proof.Machine

open Sys2Proof.Safety

/-! ### The fields of an argument word (R170) -/

theorem low8_eq (w : Word) : (w.extractLsb' 0 8).toNat = low8 w := by
  simp [low8]

theorem colourCount_eq_low8 (w : Word) : colourCount w = low8 w := low8_eq w

theorem targetNumber_eq_low16 (w : Word) : targetNumber w = low16 w := by
  simp [targetNumber, low16]

theorem firstSlot_eq_high16 (w : Word) : firstSlot w = high16 w := by
  have := w.isLt
  simp only [firstSlot, high16, BitVec.extractLsb'_toNat, Nat.shiftRight_eq_div_pow]
  omega

/-- The top bit of x is set exactly where x is 32768 or more (R144). -/
theorem getLsbD_31_iff (w : Word) : w.getLsbD 31 = true ↔ 32767 < high16 w := by
  have := w.isLt
  simp only [BitVec.getLsbD, Nat.testBit_eq_decide_div_mod_eq, decide_eq_true_eq, high16]
  omega

/-- The top bit of y is set exactly where y is 32768 or more (R144). -/
theorem getLsbD_15_iff (w : Word) : w.getLsbD 15 = true ↔ 32767 < low16 w := by
  simp only [BitVec.getLsbD, Nat.testBit_eq_decide_div_mod_eq, decide_eq_true_eq, low16]
  omega

/-- Two visibility codes are assigned (R145, R168). -/
theorem readVisibility_eq_none_iff (b : Byte) : readVisibility b = none ↔ 1 < b.toNat := by
  unfold readVisibility
  split
  · simp [*]
  · split
    · simp [*]
    · simp only [true_iff]
      bv_omega

/-! ### The numbers of the targets (R1) -/

@[simp] theorem Target.ofNumber?_number (t : Target) : Target.ofNumber? t.number = some t := by
  cases t with
  | slot s => simp [Target.ofNumber?, Target.number]
  | row r => simp [Target.ofNumber?, Target.number]
  | position => rfl
  | visibility => rfl

theorem Target.ofNumber?_eq_none_iff (n : Nat) : Target.ofNumber? n = none ↔ 293 < n := by
  unfold Target.ofNumber?
  repeat' split
  all_goals simp only [reduceCtorEq, true_iff, false_iff]; omega

/-! ### What the arguments of an item-making command ask for (R140, R142 to R145) -/

/-- One item for each colour. -/
theorem slotItems_length {first : Nat} {colours : List Word} {items : List Item}
    (h : slotItems first colours = some items) : items.length = colours.length := by
  induction colours generalizing first items with
  | nil => simp_all [slotItems]
  | cons w rest ih =>
    simp only [slotItems] at h
    split at h
    · obtain ⟨items', hrest, rfl⟩ := Option.map_eq_some_iff.mp h
      simp [ih hrest]
    · cases h

/-- The slots run out exactly where the last of a run of some would be beyond 259 (R142). -/
theorem slotItems_eq_none_iff (first : Nat) (colours : List Word) :
    slotItems first colours = none ↔ colours ≠ [] ∧ 260 < first + colours.length := by
  induction colours generalizing first with
  | nil => simp [slotItems]
  | cons w rest ih =>
    rw [slotItems]
    split
    · rw [Option.map_eq_none_iff, ih, ← List.length_pos_iff]
      simp only [List.length_cons, ne_eq, reduceCtorEq, not_false_eq_true, true_and]
      omega
    · simp only [List.length_cons, ne_eq, reduceCtorEq, not_false_eq_true, true_and, true_iff]
      omega

/-- What the tables of R140 say of a command's arguments, for each thing its row can make of them. -/
def Request.Follows (kind : Nat) (args : List Word) : Request → Prop
  | .malformed => args.length ≠ requiredLength kind args
  | .outOfRange => args.length = requiredLength kind args ∧ argumentOutOfRange kind args = true
  | .items made =>
    args.length = requiredLength kind args ∧ argumentOutOfRange kind args = false ∧ made.length = itemCount kind args

theorem argumentOutOfRange_setColors_iff (w : Word) (colours : List Word) :
    argumentOutOfRange 1 (w :: colours) = true ↔
      low8 w = 0 ∨ 8 < low8 w ∨ 259 < high16 w ∨ 259 < high16 w + low8 w - 1 := by
  simp [argumentOutOfRange, or_assoc]

theorem setColorsRequest_follows (args : List Word) : (setColorsRequest args).Follows 1 args := by
  cases args with
  | nil =>
    simp only [setColorsRequest, Request.Follows, requiredLength, List.length_nil]
    omega
  | cons w colours =>
    have hrange := argumentOutOfRange_setColors_iff w colours
    simp only [setColorsRequest, colourCount_eq_low8, firstSlot_eq_high16]
    split
    next hlength =>
      simp only [Request.Follows, requiredLength, List.length_cons, List.headD_cons]
      omega
    next hlength =>
    have hlength : colours.length = low8 w := by simpa using hlength
    have hrequired : (w :: colours).length = requiredLength 1 (w :: colours) := by
      simp [requiredLength, hlength, Nat.add_comm]
    split
    next hfields =>
      refine ⟨hrequired, hrange.mpr ?_⟩
      simp only [Bool.or_eq_true, decide_eq_true_eq] at hfields
      omega
    next hfields =>
    simp only [Bool.or_eq_true, decide_eq_true_eq] at hfields
    have hrun := slotItems_eq_none_iff (high16 w) colours
    rw [← List.length_pos_iff, hlength] at hrun
    split
    next items hitems =>
      simp only [hitems, reduceCtorEq, false_iff] at hrun
      refine ⟨hrequired, ?_, ?_⟩
      · rw [← Bool.not_eq_true, hrange]
        omega
      · simp [slotItems_length hitems, hlength, itemCount]
    next hnone =>
      have hbeyond := hrun.mp hnone
      refine ⟨hrequired, hrange.mpr ?_⟩
      omega

theorem setPointerRowRequest_follows (args : List Word) : (setPointerRowRequest args).Follows 2 args := by
  unfold setPointerRowRequest
  split
  next row high low =>
    split
    next hrow =>
      rw [low8_eq] at hrow
      exact ⟨rfl, decide_eq_false (Nat.not_lt.mpr (Nat.le_of_lt_succ hrow)), rfl⟩
    next hrow =>
      rw [low8_eq] at hrow
      exact ⟨rfl, decide_eq_true (Nat.not_lt.mp hrow)⟩
  next hshape =>
    intro hlength
    obtain ⟨row, high, low, rfl⟩ := List.length_eq_three.mp hlength
    exact hshape _ _ _ rfl

theorem movePointerRequest_follows (args : List Word) : (movePointerRequest args).Follows 3 args := by
  unfold movePointerRequest
  split
  next w =>
    simp only [Bool.or_eq_true, getLsbD_31_iff, getLsbD_15_iff]
    split
    next hbeyond => simpa [Request.Follows, requiredLength, argumentOutOfRange] using hbeyond
    next hwithin => simpa [Request.Follows, requiredLength, argumentOutOfRange, itemCount] using hwithin
  next hshape =>
    intro hlength
    obtain ⟨w, rfl⟩ := List.length_eq_one_iff.mp hlength
    exact hshape _ rfl

theorem pointerVisibilityRequest_follows (args : List Word) : (pointerVisibilityRequest args).Follows 4 args := by
  unfold pointerVisibilityRequest
  split
  next w =>
    have hcode := readVisibility_eq_none_iff (w.extractLsb' 0 8)
    rw [low8_eq] at hcode
    split
    next v hv => simpa [Request.Follows, requiredLength, argumentOutOfRange, itemCount, hv] using hcode
    next hnone => simpa [Request.Follows, requiredLength, argumentOutOfRange] using hcode.mp hnone
  next hshape =>
    intro hlength
    obtain ⟨w, rfl⟩ := List.length_eq_one_iff.mp hlength
    exact hshape _ rfl

/-! ### The refusal of each kind (R140) -/

/-- Words of no kind are MALFORMED, whatever their length. -/
theorem refusal_of_unknown (s : State) {kind : Nat} (args : List Word) (h : kind = 0 ∨ 8 < kind) :
    refusal s kind args = some .malformed := by
  rw [refusal, if_pos]
  tauto

/-- The refusal of an item-making command, by what its arguments ask for. -/
def Request.refusal (s : State) : Request → Option RefusalReason
  | .malformed => some .malformed
  | .outOfRange => if s.active then some .range else some .notActive
  | .items made =>
    if !s.active then some .notActive
    else if 32 < s.command.queue.length + made.length then some .queueFull
    else none

theorem refusal_itemMaking (s : State) {kind : Nat} {args : List Word} {request : Request}
    (hkind : itemMaking kind = true) (hrequest : request.Follows kind args) :
    refusal s kind args = request.refusal s := by
  have hcode : ¬kind = 0 ∧ ¬8 < kind ∧ ¬kind = 8 := by
    simp only [itemMaking, Bool.and_eq_true, decide_eq_true_eq] at hkind
    omega
  cases request with
  | malformed =>
    have hlength : args.length ≠ requiredLength kind args := hrequest
    simp [refusal, Request.refusal, hlength]
  | outOfRange =>
    obtain ⟨hlength, hrange⟩ := hrequest
    cases hactive : s.active <;> simp [refusal, Request.refusal, hcode, hlength, hrange, hkind, hactive]
  | items items =>
    obtain ⟨hlength, hrange, hcount⟩ := hrequest
    cases hactive : s.active <;>
      simp [refusal, Request.refusal, hcode, hlength, hrange, hkind, hactive, hcount]

/-- WITHDRAW and STATUS fail no test but that of their length. -/
theorem refusal_withdraw_or_status (s : State) {kind : Nat} (args : List Word) (h : kind = 5 ∨ kind = 7) :
    refusal s kind args = if args = [] then none else some .malformed := by
  rcases h with rfl | rfl <;> by_cases hargs : args = [] <;>
    simp [refusal, requiredLength, itemMaking, argumentOutOfRange, hargs]

theorem nonempty_of_refusal {s : State} {kind : Nat} {args : List Word} {reason : RefusalReason}
    (hkind : kind = 5 ∨ kind = 7) (h : refusal s kind args = some reason) : args ≠ [] ∧ reason = .malformed := by
  rw [refusal_withdraw_or_status s args hkind] at h
  split at h
  next => cases h
  next hargs =>
    cases h
    exact ⟨hargs, rfl⟩

/-- READ TARGET of one word fails no test but that of the target number. -/
theorem refusal_readTarget (s : State) (w : Word) :
    refusal s 6 [w] = if 293 < low16 w then some .range else none := by
  simp [refusal, requiredLength, itemMaking, argumentOutOfRange]

theorem refusal_readTarget_of_length (s : State) {args : List Word} (h : args.length ≠ 1) :
    refusal s 6 args = some .malformed := by
  simp [refusal, requiredLength, h]

/-- REJOIN is refused by its length, then before a configuration is in effect (R137). -/
theorem refusal_rejoin (s : State) (args : List Word) :
    refusal s 8 args =
      if args ≠ [] then some .malformed else if s.station.state.permitsRejoin then none else some .notActive := by
  by_cases h : args = []
  · cases hs : s.station.state <;>
      simp [refusal, requiredLength, itemMaking, argumentOutOfRange, StationState.permitsRejoin, h, hs]
  · simp [refusal, requiredLength, h]

/-! ### The rows at the last word of a command (R139) -/

/-- The station with the command taken from the port. -/
abbrev State.afterCommand (s : State) : State := { s with port := portAfterCommand s }

/-- The tests read the station state and the proposal queue, not the port. -/
theorem refusal_afterCommand (s : State) (kind : Nat) (args : List Word) :
    refusal s.afterCommand kind args = refusal s kind args := rfl

section
variable {s : State} {payload : Word} {kind : Byte} {tag : Tag} {args : List Word}

theorem State.takeCommand_of_completes (h : Completes s payload kind tag args) {row : Option CommandKind}
    (hkind : commandKind kind = row) (act : State → Command → State) :
    s.takeCommand payload row act = act s.afterCommand ⟨kind, tag, args⟩ := by
  simp [State.takeCommand, h, hkind]

theorem exec_unknownCommand_of_completes (h : Completes s payload kind tag args) (hkind : commandKind kind = none) :
    exec (.unknownCommand payload) s = .next (s.afterCommand.refuse tag .malformed) :=
  congrArg Host.Outcome.next (State.takeCommand_of_completes h hkind _)

theorem exec_setColors_of_completes (h : Completes s payload 1 tag args) :
    exec (.setColors payload) s = .next (s.afterCommand.takeRequest tag (setColorsRequest args)) :=
  congrArg Host.Outcome.next (State.takeCommand_of_completes h rfl _)

theorem exec_setPointerRow_of_completes (h : Completes s payload 2 tag args) :
    exec (.setPointerRow payload) s = .next (s.afterCommand.takeRequest tag (setPointerRowRequest args)) :=
  congrArg Host.Outcome.next (State.takeCommand_of_completes h rfl _)

theorem exec_movePointer_of_completes (h : Completes s payload 3 tag args) :
    exec (.movePointer payload) s = .next (s.afterCommand.takeRequest tag (movePointerRequest args)) :=
  congrArg Host.Outcome.next (State.takeCommand_of_completes h rfl _)

theorem exec_pointerVisibility_of_completes (h : Completes s payload 4 tag args) :
    exec (.pointerVisibility payload) s = .next (s.afterCommand.takeRequest tag (pointerVisibilityRequest args)) :=
  congrArg Host.Outcome.next (State.takeCommand_of_completes h rfl _)

theorem exec_withdraw_of_completes (h : Completes s payload 5 tag args) :
    exec (.withdraw payload) s =
      .next (if args = [] then s.afterCommand.withdraw tag else s.afterCommand.refuse tag .malformed) :=
  congrArg Host.Outcome.next (State.takeCommand_of_completes h rfl _)

theorem exec_readTarget_of_completes (h : Completes s payload 6 tag args) :
    exec (.readTarget payload) s = .next (s.afterCommand.readTarget tag args) :=
  congrArg Host.Outcome.next (State.takeCommand_of_completes h rfl _)

theorem exec_status_of_completes (h : Completes s payload 7 tag args) :
    exec (.status payload) s =
      .next (if args = [] then s.afterCommand.report (.status tag s.afterCommand.statusFields)
        else s.afterCommand.refuse tag .malformed) :=
  congrArg Host.Outcome.next (State.takeCommand_of_completes h rfl _)

theorem exec_rejoin_of_completes (h : Completes s payload 8 tag args) :
    exec (.rejoin payload) s =
      .next (if args ≠ [] then s.afterCommand.refuse tag .malformed
        else if s.station.state.permitsRejoin then s.afterCommand.rejoin tag
        else s.afterCommand.refuse tag .notActive) :=
  congrArg Host.Outcome.next (State.takeCommand_of_completes h rfl _)

end

/-! ### READ TARGET (R147) -/

theorem State.readTarget_of_number (s : State) (tag : Tag) {w : Word} {target : Target}
    (h : low16 w = target.number) : s.readTarget tag [w] = s.report (.value tag (s.store.wall.item target)) := by
  simp [State.readTarget, targetNumber_eq_low16, h]

theorem State.readTarget_of_beyond (s : State) (tag : Tag) {w : Word} (h : 293 < low16 w) :
    s.readTarget tag [w] = s.refuse tag .range := by
  simp [State.readTarget, targetNumber_eq_low16, (Target.ofNumber?_eq_none_iff _).mpr h]

theorem State.readTarget_of_length (s : State) (tag : Tag) {args : List Word} (h : args.length ≠ 1) :
    s.readTarget tag args = s.refuse tag .malformed := by
  unfold State.readTarget
  split
  · simp at h
  · rfl

/-- Settles O12: the row answers `State.readTarget`, at the port with the command taken, whose two cases of a number are
those of `Target.ofNumber?`. -/
theorem readTargetAnswersTheValue : Obligations.ReadTargetAnswersTheValue := by
  intro s payload tag w hcomplete
  rw [exec_readTarget_of_completes hcomplete]
  refine ⟨fun target hnumber => ?_, fun hbeyond => ?_⟩
  · rw [State.readTarget_of_number _ tag hnumber]
    rfl
  · rw [State.readTarget_of_beyond _ tag hbeyond]
    rfl

/-! ### The refusals (R140) -/

/-- A command that passes RANGE makes at least one item. -/
theorem itemCount_pos {kind : Nat} {args : List Word} (h : argumentOutOfRange kind args = false) :
    0 < itemCount kind args := by
  unfold itemCount
  split
  next hkind =>
    subst hkind
    simp_all [argumentOutOfRange, Nat.pos_iff_ne_zero]
  next => exact Nat.one_pos

/-- An item-making command that a test refuses is refused by its row, for the same reason: the free capacity of R73 is
what is left of 32 places, and at least one item is to be queued. -/
theorem State.takeRequest_of_refusal {s : State} {kind : Nat} {args : List Word} {request : Request}
    {reason : RefusalReason} (tag : Tag) (hkind : itemMaking kind = true) (hrequest : request.Follows kind args)
    (h : refusal s kind args = some reason) : s.takeRequest tag request = s.refuse tag reason := by
  rw [refusal_itemMaking s hkind hrequest] at h
  cases request with
  | malformed =>
    cases h
    rfl
  | outOfRange =>
    simp only [State.takeRequest, Request.refusal] at h ⊢
    split at h
    next hactive =>
      cases h
      rw [if_pos hactive]
    next hinactive =>
      cases h
      rw [if_neg hinactive]
  | items items =>
    obtain ⟨-, hrange, hcount⟩ := hrequest
    have hsome := itemCount_pos hrange
    simp only [State.takeRequest, Request.refusal] at h ⊢
    split at h
    next hinactive =>
      cases h
      rw [if_pos hinactive]
    next hactive =>
    split at h
    next hfull =>
      cases h
      have hcapacity : ¬items.length ≤ s.command.freeCapacity := by
        simp only [CommandUnit.freeCapacity, Config.queueCapacity]
        omega
      rw [if_neg hactive, if_neg hcapacity]
    next => cases h

theorem State.readTarget_of_refusal {s : State} {args : List Word} {reason : RefusalReason} (tag : Tag)
    (h : refusal s 6 args = some reason) : s.readTarget tag args = s.refuse tag reason := by
  by_cases hlength : args.length = 1
  · obtain ⟨w, rfl⟩ := List.length_eq_one_iff.mp hlength
    rw [refusal_readTarget] at h
    split at h
    next hbeyond =>
      cases h
      exact s.readTarget_of_beyond tag hbeyond
    next => cases h
  · rw [refusal_readTarget_of_length s hlength] at h
    cases h
    exact s.readTarget_of_length tag hlength

/-- The eight kind codes of R170, and the codes of no kind. -/
theorem kindCode_cases (kind : Byte) :
    kind = 1 ∨ kind = 2 ∨ kind = 3 ∨ kind = 4 ∨ kind = 5 ∨ kind = 6 ∨ kind = 7 ∨ kind = 8 ∨
      (kind.toNat = 0 ∨ 8 < kind.toNat) := by
  bv_omega

theorem commandKind_eq_none {kind : Byte} (h : kind.toNat = 0 ∨ 8 < kind.toNat) : commandKind kind = none := by
  have hcodes : kind ≠ 1 ∧ kind ≠ 2 ∧ kind ≠ 3 ∧ kind ≠ 4 ∧ kind ≠ 5 ∧ kind ≠ 6 ∧ kind ≠ 7 ∧ kind ≠ 8 := by bv_omega
  simp_all [commandKind]

theorem commandRow_of_unknown {kind : Nat} (payload : Word) (h : kind = 0 ∨ 8 < kind) :
    commandRow kind payload = .unknownCommand payload := by
  unfold commandRow
  split
  case h_9 => rfl
  all_goals omega

/-- Settles O8, kind by kind: where a test of R140 gives a refusal, the row of the kind answers it. -/
theorem refusalsInOrder : Obligations.RefusalsInOrder := by
  intro s payload kind tag args reason hcomplete hrefusal
  have hafter := (refusal_afterCommand s kind.toNat args).trans hrefusal
  suffices h : exec (commandRow kind.toNat payload) s = .next (s.afterCommand.refuse tag reason) from h
  rcases kindCode_cases kind with rfl | rfl | rfl | rfl | rfl | rfl | rfl | rfl | hunknown
  · exact (exec_setColors_of_completes hcomplete).trans
      (congrArg _ (State.takeRequest_of_refusal tag rfl (setColorsRequest_follows args) hafter))
  · exact (exec_setPointerRow_of_completes hcomplete).trans
      (congrArg _ (State.takeRequest_of_refusal tag rfl (setPointerRowRequest_follows args) hafter))
  · exact (exec_movePointer_of_completes hcomplete).trans
      (congrArg _ (State.takeRequest_of_refusal tag rfl (movePointerRequest_follows args) hafter))
  · exact (exec_pointerVisibility_of_completes hcomplete).trans
      (congrArg _ (State.takeRequest_of_refusal tag rfl (pointerVisibilityRequest_follows args) hafter))
  · obtain ⟨hargs, rfl⟩ := nonempty_of_refusal (.inl rfl) hrefusal
    exact (exec_withdraw_of_completes hcomplete).trans (by rw [if_neg hargs])
  · exact (exec_readTarget_of_completes hcomplete).trans (congrArg _ (State.readTarget_of_refusal tag hafter))
  · obtain ⟨hargs, rfl⟩ := nonempty_of_refusal (.inr rfl) hrefusal
    exact (exec_status_of_completes hcomplete).trans (by rw [if_neg hargs])
  · have htests := (refusal_rejoin s args).symm.trans hrefusal
    refine (exec_rejoin_of_completes hcomplete).trans (congrArg _ ?_)
    split at htests
    next hargs =>
      cases htests
      rw [if_pos hargs]
    next hargs =>
    split at htests
    next => cases htests
    next hstate =>
      cases htests
      rw [if_neg hargs, if_neg hstate]
  · rw [refusal_of_unknown s args hunknown] at hrefusal
    cases hrefusal
    rw [commandRow_of_unknown payload hunknown]
    exact exec_unknownCommand_of_completes hcomplete (commandKind_eq_none hunknown)

end Sys2Proof.Machine
end

section
/-! The pixel path (spec/10_the_pixel_path.md): what a pixel word does at the port and at the fill buffer (R138, R139,
R157). -/

namespace Sys2Proof.Machine

/-! ### The fields of a word, as quotients (R170) -/

theorem extractLsb'_eq_ofNat_div (w : Word) (start len : Nat) :
    w.extractLsb' start len = BitVec.ofNat len (w.toNat / 2 ^ start) := by
  rw [BitVec.extractLsb', Nat.shiftRight_eq_div_pow]

theorem headTag_eq_ofNat (head : Word) : headTag head = BitVec.ofNat 6 (head.toNat / 262144) :=
  extractLsb'_eq_ofNat_div head 18 6

theorem pixelOf_index (w : Word) : pixelOf .index w = .index (BitVec.ofNat 8 w.toNat) := rfl

theorem pixelOf_direct (w : Word) :
    pixelOf .direct w =
      .direct (BitVec.ofNat 8 (w.toNat / 16777216))
        ⟨BitVec.ofNat 8 (w.toNat / 65536), BitVec.ofNat 8 (w.toNat / 256), BitVec.ofNat 8 w.toNat⟩ := by
  simp [pixelOf, extractLsb'_eq_ofNat_div]

/-! ### A pixel word at the fill buffer (R157, R159) -/

theorem PixelPath.long_of_flagged {p : PixelPath} (line : Nat) (h : p.longFlag = true) : p.long line = (p, []) := by
  rw [PixelPath.long, if_pos h]

theorem PixelPath.long_of_unflagged {p : PixelPath} (line : Nat) (h : ¬p.longFlag = true) :
    p.long line = ({ p with longFlag := true }, [.event (.sourceLong line)]) := by
  rw [PixelPath.long, if_neg h]

theorem PixelPath.take_of_room {c : Settings} {p : PixelPath} (line : Nat) (payload : Word)
    (h : p.fill.length < c.width) :
    p.take c line payload = ({ p with fill := p.fill ++ [pixelOf c.format payload] }, []) := if_pos h

theorem PixelPath.take_of_full {c : Settings} {p : PixelPath} (line : Nat) (payload : Word)
    (h : ¬p.fill.length < c.width) : p.take c line payload = p.long line := if_neg h

/-! ### A pixel word at the port (R138, R139) -/

theorem State.handPixel_of_running {s : State} {c : Settings} (payload : Word) (hconfig : s.loader.config = some c)
    (hrunning : s.timer.running = true) :
    s.handPixel payload = s.runPixel (PixelPath.take c s.timer.line payload) := by
  simp [State.handPixel, hconfig, hrunning]

theorem State.handPixel_of_stopped {s : State} (payload : Word) (h : s.timer.running = false) :
    s.handPixel payload = s := by
  unfold State.handPixel
  split
  · simp [h]
  · rfl

theorem State.endAssembly_of_none {s : State} (h : s.port.assembly = none) : s.endAssembly = s := by
  simp [State.endAssembly, h]

theorem State.endAssembly_of_some {s : State} {a : Assembly} (h : s.port.assembly = some a) :
    s.endAssembly = s.afterCommand.refuse (headTag a.head) .malformed := by
  simp [State.endAssembly, h, State.refuse, State.report]

/-- A refusal queues a record and leaves the port's hold on a command as it was. -/
theorem State.refuse_assembly (s : State) (tag : Tag) (reason : RefusalReason) :
    (s.refuse tag reason).port.assembly = s.port.assembly := SourcePort.enqueue_assembly _ _

/-- The port ends a command that is incomplete, then hands the word on. -/
theorem exec_pixelWord (s : State) (payload : Word) :
    exec (.pixelWord payload) s = .next (s.endAssembly.handPixel payload) := rfl

theorem exec_pixelWord_of_none {s : State} (payload : Word) (h : s.port.assembly = none) :
    exec (.pixelWord payload) s = .next (s.handPixel payload) := by
  rw [exec_pixelWord, State.endAssembly_of_none h]

theorem exec_pixelWord_of_some {s : State} {a : Assembly} (payload : Word) (h : s.port.assembly = some a) :
    exec (.pixelWord payload) s =
      .next ((s.afterCommand.refuse (headTag a.head) .malformed).handPixel payload) := by
  rw [exec_pixelWord, State.endAssembly_of_some h]

/-! ### PIXEL_WORD (R157) -/

/-- Settles O6: at a port that holds no command the row is `State.handPixel`, whose cases are those of the fill buffer and
of SOURCE LONG's flag; and the refusal of an incomplete command leaves such a port. -/
theorem pixelWordFillsOrIsDiscarded : Obligations.PixelWordFillsOrIsDiscarded := by
  intro s w
  refine ⟨fun c hnone hconfig hrunning => ?running, fun hnone hstopped => ?stopped, fun a hsome => ?incomplete⟩
  case running =>
    rw [exec_pixelWord_of_none w hnone, State.handPixel_of_running w hconfig hrunning, State.runPixel]
    congr 1
    split
    next hroom =>
      rw [PixelPath.take_of_room _ w hroom]
      cases c.format with
      | index => rw [pixelOf_index, SourcePort.enqueueAll_nil]
      | direct => rw [pixelOf_direct, SourcePort.enqueueAll_nil]
    next hfull =>
    rw [PixelPath.take_of_full _ w hfull]
    split
    next hflag => rw [PixelPath.long_of_flagged _ hflag, SourcePort.enqueueAll_nil]
    next hflag => rw [PixelPath.long_of_unflagged _ hflag, SourcePort.enqueueAll_cons, SourcePort.enqueueAll_nil]
  case stopped => rw [exec_pixelWord_of_none w hnone, State.handPixel_of_stopped w hstopped]
  case incomplete =>
    have hrefused : (s.afterCommand.refuse (headTag a.head) .malformed).port.assembly = none :=
      State.refuse_assembly _ _ _
    rw [← headTag_eq_ofNat, exec_pixelWord_of_some w hsome]
    exact (exec_pixelWord_of_none w hrefused).symm

end Sys2Proof.Machine
end

section
/-! SUPPORT. What each composed operation leaves unchanged, block by block, and the state after a command. Later proofs cite
these in place of unfolding an operation for a block it does not own. -/

namespace Sys2Proof.Machine

-- One thread, as for the tests: proofs elaborated side by side would exceed the build's memory limit.
set_option Elab.async false

/-! ### The report queue -/

@[simp] theorem SourcePort.enqueueAll_assembly (p : SourcePort) (rs : List Record) :
    (p.enqueueAll rs).assembly = p.assembly := (p.enqueueAll_frame rs).1

@[simp] theorem SourcePort.enqueueAll_cue (p : SourcePort) (rs : List Record) : (p.enqueueAll rs).cue = p.cue :=
  (p.enqueueAll_frame rs).2.1

@[simp] theorem State.refuse_eq_report (s : State) (tag : Tag) (reason : RefusalReason) :
    s.refuse tag reason = s.report (.refused tag reason) := rfl

/-! ### The shared operations -/

section
variable (s : State)

/-- The order in which two blocks queue their records shows in the report queue and the count of choices alone. -/
@[simp] theorem State.eitherOrder_frame (records : List Record) (queues : Bool) (act : State → State) :
    (s.eitherOrder records queues act).loader = (act s).loader ∧
      (s.eitherOrder records queues act).command = (act s).command ∧
      (s.eitherOrder records queues act).bus = (act s).bus ∧
      (s.eitherOrder records queues act).timer = (act s).timer ∧
      (s.eitherOrder records queues act).store = (act s).store ∧
      (s.eitherOrder records queues act).members = (act s).members ∧
      (s.eitherOrder records queues act).resync = (act s).resync ∧
      (s.eitherOrder records queues act).station = (act s).station ∧
      (s.eitherOrder records queues act).pixel = (act s).pixel ∧
      (s.eitherOrder records queues act).pending = (act s).pending := by
  unfold State.eitherOrder
  split <;> simp

@[simp] theorem State.applyClosed_frame (torn : Bool) :
    (s.applyClosed torn).loader = s.loader ∧ (s.applyClosed torn).command = s.command ∧
      (s.applyClosed torn).bus = s.bus ∧ (s.applyClosed torn).timer = s.timer ∧
      (s.applyClosed torn).resync = s.resync ∧ (s.applyClosed torn).station = s.station ∧
      (s.applyClosed torn).pixel = s.pixel ∧ (s.applyClosed torn).choices = s.choices ∧
      (s.applyClosed torn).pending = s.pending := by
  unfold State.applyClosed
  split <;> simp

@[simp] theorem State.outcomeAborted_frame :
    s.outcomeAborted.loader = s.loader ∧ s.outcomeAborted.timer = s.timer ∧ s.outcomeAborted.store = s.store ∧
      s.outcomeAborted.members = s.members ∧ s.outcomeAborted.resync = s.resync ∧
      s.outcomeAborted.station = s.station ∧ s.outcomeAborted.pixel = s.pixel ∧
      s.outcomeAborted.choices = s.choices ∧ s.outcomeAborted.pending = s.pending ∧
      s.outcomeAborted.bus = { s.bus with chosen := none } := by
  unfold State.outcomeAborted
  split <;> simp

@[simp] theorem State.outcomeClean_frame (kind : MessageKind) :
    (s.outcomeClean kind).loader = s.loader ∧ (s.outcomeClean kind).bus = s.bus ∧
      (s.outcomeClean kind).timer = s.timer ∧ (s.outcomeClean kind).store = s.store ∧
      (s.outcomeClean kind).station = s.station ∧ (s.outcomeClean kind).pixel = s.pixel ∧
      (s.outcomeClean kind).choices = s.choices ∧ (s.outcomeClean kind).pending = s.pending := by
  cases kind with
  | audit => unfold State.outcomeClean; dsimp only; split <;> simp
  | _ => exact ⟨rfl, rfl, rfl, rfl, rfl, rfl, rfl, rfl⟩

@[simp] theorem State.mute_blocks (cause : MuteCause) :
    (s.mute cause).loader = s.loader ∧ (s.mute cause).store = s.store ∧ (s.mute cause).pixel = s.pixel ∧
      (s.mute cause).pending = s.pending ∧ (s.mute cause).choices = s.choices ∧
      (s.mute cause).station = { s.station with state := .muted } := by
  obtain ⟨hloader, hstore, hpixel, hpending, hstation, -⟩ := s.mute_frame cause
  refine ⟨hloader, hstore, hpixel, hpending, ?_, hstation⟩
  unfold State.mute
  split <;> rfl

@[simp] theorem State.receiveError_frame :
    s.receiveError.loader = s.loader ∧ s.receiveError.command = s.command ∧ s.receiveError.timer = s.timer ∧
      s.receiveError.store = s.store ∧ s.receiveError.pixel = s.pixel ∧ s.receiveError.choices = s.choices ∧
      s.receiveError.pending = s.pending := by
  unfold State.receiveError
  split <;> simp

@[simp] theorem State.receiveErrorAndAbort_frame :
    s.receiveErrorAndAbort.loader = s.loader ∧ s.receiveErrorAndAbort.timer = s.timer ∧
      s.receiveErrorAndAbort.store = s.store ∧ s.receiveErrorAndAbort.pixel = s.pixel ∧
      s.receiveErrorAndAbort.pending = s.pending := by
  unfold State.receiveErrorAndAbort
  split <;> simp

@[simp] theorem State.fieldFault_frame :
    s.fieldFault.loader = s.loader ∧ s.fieldFault.timer = s.timer ∧ s.fieldFault.store = s.store ∧
      s.fieldFault.pixel = s.pixel ∧ s.fieldFault.pending = s.pending :=
  s.receiveErrorAndAbort_frame

@[simp] theorem State.select_frame :
    s.select.loader = s.loader ∧ s.select.port = s.port ∧ s.select.timer = s.timer ∧ s.select.store = s.store ∧
      s.select.members = s.members ∧ s.select.resync = s.resync ∧ s.select.station = s.station ∧
      s.select.pixel = s.pixel ∧ s.select.choices = s.choices ∧ s.select.pending = s.pending := by
  unfold State.select
  split <;> simp

/-! ### The source port's commands -/

@[simp] theorem State.takeRequest_frame (tag : Tag) (request : Request) :
    (s.takeRequest tag request).loader = s.loader ∧ (s.takeRequest tag request).bus = s.bus ∧
      (s.takeRequest tag request).timer = s.timer ∧ (s.takeRequest tag request).store = s.store ∧
      (s.takeRequest tag request).members = s.members ∧ (s.takeRequest tag request).resync = s.resync ∧
      (s.takeRequest tag request).station = s.station ∧ (s.takeRequest tag request).pixel = s.pixel ∧
      (s.takeRequest tag request).choices = s.choices ∧ (s.takeRequest tag request).pending = s.pending := by
  rcases s.takeRequest_cases tag request with ⟨reason, h⟩ | ⟨items, -, -, -, h⟩ <;> simp [h]

/-- A READ TARGET queues one record. -/
theorem State.readTarget_eq_report (tag : Tag) (args : List Word) :
    ∃ r, s.readTarget tag args = s.report r := by
  unfold State.readTarget
  split
  · split <;> exact ⟨_, rfl⟩
  · exact ⟨_, rfl⟩

@[simp] theorem State.endAssembly_frame :
    s.endAssembly.loader = s.loader ∧ s.endAssembly.command = s.command ∧ s.endAssembly.bus = s.bus ∧
      s.endAssembly.timer = s.timer ∧ s.endAssembly.store = s.store ∧ s.endAssembly.members = s.members ∧
      s.endAssembly.resync = s.resync ∧ s.endAssembly.station = s.station ∧ s.endAssembly.pixel = s.pixel ∧
      s.endAssembly.choices = s.choices ∧ s.endAssembly.pending = s.pending := by
  unfold State.endAssembly
  split <;> simp

@[simp] theorem PixelPath.take_shown (c : Settings) (line : Nat) (payload : Word) (p : PixelPath) :
    (p.take c line payload).1.shown = p.shown := by
  unfold PixelPath.take PixelPath.long
  repeat' split
  all_goals rfl

@[simp] theorem State.handPixel_frame (payload : Word) :
    (s.handPixel payload).loader = s.loader ∧ (s.handPixel payload).command = s.command ∧
      (s.handPixel payload).bus = s.bus ∧ (s.handPixel payload).timer = s.timer ∧
      (s.handPixel payload).store = s.store ∧ (s.handPixel payload).members = s.members ∧
      (s.handPixel payload).resync = s.resync ∧ (s.handPixel payload).station = s.station ∧
      (s.handPixel payload).pixel.shown = s.pixel.shown ∧
      (s.handPixel payload).choices = s.choices ∧ (s.handPixel payload).pending = s.pending := by
  unfold State.handPixel
  repeat' split
  all_goals simp

/-! ### The mark -/

@[simp] theorem State.catchUp_frame (c : Settings) (behind : Nat) :
    (s.catchUp c behind).loader = s.loader ∧ (s.catchUp c behind).command = s.command ∧
      (s.catchUp c behind).bus = s.bus ∧ (s.catchUp c behind).store = s.store ∧
      (s.catchUp c behind).members = s.members ∧ (s.catchUp c behind).resync = s.resync ∧
      (s.catchUp c behind).station = s.station ∧ (s.catchUp c behind).choices = s.choices ∧
      (s.catchUp c behind).pending = s.pending := by
  rcases s.catchUp_cases c behind with ⟨-, -, h⟩ | ⟨-, -, h⟩ | ⟨-, h⟩ <;> simp [h]

@[simp] theorem State.correct_frame (c : Settings) :
    (s.correct c).loader = s.loader ∧ (s.correct c).command = s.command ∧ (s.correct c).bus = s.bus ∧
      (s.correct c).store = s.store ∧ (s.correct c).members = s.members ∧ (s.correct c).resync = s.resync ∧
      (s.correct c).station = s.station ∧ (s.correct c).choices = s.choices ∧
      (s.correct c).pending = s.pending := by
  unfold State.correct
  split <;> simp

@[simp] theorem State.timerMark_frame (c : Settings) (adopted : Epoch) :
    (s.timerMark c adopted).loader = s.loader ∧ (s.timerMark c adopted).command = s.command ∧
      (s.timerMark c adopted).bus = s.bus ∧ (s.timerMark c adopted).store = s.store ∧
      (s.timerMark c adopted).members = s.members ∧ (s.timerMark c adopted).resync = s.resync ∧
      (s.timerMark c adopted).station = s.station ∧ (s.timerMark c adopted).choices = s.choices ∧
      (s.timerMark c adopted).pending = s.pending := by
  simp [State.timerMark]

@[simp] theorem State.closeGeneration_frame (c : Settings) (line : Nat) (adopted : Epoch) (offset : Int) :
    (s.closeGeneration c line adopted offset).loader = s.loader ∧
      (s.closeGeneration c line adopted offset).command = s.command ∧
      (s.closeGeneration c line adopted offset).bus = s.bus ∧
      (s.closeGeneration c line adopted offset).timer = s.timer ∧
      (s.closeGeneration c line adopted offset).resync = s.resync ∧
      (s.closeGeneration c line adopted offset).station = s.station ∧
      (s.closeGeneration c line adopted offset).pixel = s.pixel ∧
      (s.closeGeneration c line adopted offset).choices = s.choices ∧
      (s.closeGeneration c line adopted offset).pending = s.pending := by
  unfold State.closeGeneration
  dsimp only
  split <;> simp

@[simp] theorem State.storeMark_frame (c : Settings) (line : Nat) (adopted : Epoch) (offset : Int) :
    (s.storeMark c line adopted offset).loader = s.loader ∧ (s.storeMark c line adopted offset).command = s.command ∧
      (s.storeMark c line adopted offset).bus = s.bus ∧ (s.storeMark c line adopted offset).timer = s.timer ∧
      (s.storeMark c line adopted offset).resync = s.resync ∧
      (s.storeMark c line adopted offset).station = s.station ∧ (s.storeMark c line adopted offset).pixel = s.pixel ∧
      (s.storeMark c line adopted offset).choices = s.choices ∧
      (s.storeMark c line adopted offset).pending = s.pending := by
  unfold State.storeMark
  split <;> simp

@[simp] theorem State.stationMark_frame :
    s.stationMark.loader = s.loader ∧ s.stationMark.port = s.port ∧ s.stationMark.command = s.command ∧
      s.stationMark.bus = s.bus ∧ s.stationMark.timer = s.timer ∧ s.stationMark.store = s.store ∧
      s.stationMark.pixel = s.pixel ∧ s.stationMark.choices = s.choices ∧ s.stationMark.pending = s.pending := by
  unfold State.stationMark
  split <;> simp

@[simp] theorem State.closeWindow_frame (w : AuditWindow) :
    (s.closeWindow w).loader = s.loader ∧ (s.closeWindow w).command = s.command ∧ (s.closeWindow w).bus = s.bus ∧
      (s.closeWindow w).timer = s.timer ∧ (s.closeWindow w).store = s.store ∧ (s.closeWindow w).pixel = s.pixel ∧
      (s.closeWindow w).choices = s.choices ∧ (s.closeWindow w).pending = s.pending := by
  rcases s.closeWindow_cases w with ⟨-, -, h⟩ | h <;> simp [h]

@[simp] theorem State.windowMark_frame (c : Settings) (adopted : Epoch) :
    (s.windowMark c adopted).loader = s.loader ∧ (s.windowMark c adopted).command = s.command ∧
      (s.windowMark c adopted).bus = s.bus ∧ (s.windowMark c adopted).timer = s.timer ∧
      (s.windowMark c adopted).store = s.store ∧ (s.windowMark c adopted).pixel = s.pixel ∧
      (s.windowMark c adopted).choices = s.choices ∧ (s.windowMark c adopted).pending = s.pending := by
  unfold State.windowMark
  repeat' split
  all_goals simp

@[simp] theorem State.memberMark_frame (c : Settings) (old : Option Epoch) (adopted : Epoch) :
    (s.memberMark c old adopted).loader = s.loader ∧ (s.memberMark c old adopted).command = s.command ∧
      (s.memberMark c old adopted).bus = s.bus ∧ (s.memberMark c old adopted).timer = s.timer ∧
      (s.memberMark c old adopted).store = s.store ∧ (s.memberMark c old adopted).pixel = s.pixel ∧
      (s.memberMark c old adopted).choices = s.choices ∧ (s.memberMark c old adopted).pending = s.pending := by
  unfold State.memberMark
  repeat' split
  all_goals simp

@[simp] theorem State.waitMark_frame (c : Settings) (repairingBefore eligibleBefore : Bool) :
    (s.waitMark c repairingBefore eligibleBefore).loader = s.loader ∧
      (s.waitMark c repairingBefore eligibleBefore).command = s.command ∧
      (s.waitMark c repairingBefore eligibleBefore).bus = s.bus ∧
      (s.waitMark c repairingBefore eligibleBefore).timer = s.timer ∧
      (s.waitMark c repairingBefore eligibleBefore).store = s.store ∧
      (s.waitMark c repairingBefore eligibleBefore).pixel = s.pixel ∧
      (s.waitMark c repairingBefore eligibleBefore).choices = s.choices ∧
      (s.waitMark c repairingBefore eligibleBefore).pending = s.pending := by
  rcases s.waitMark_cases c repairingBefore eligibleBefore with ⟨-, -, -, h⟩ | ⟨-, -, -, h⟩ | h <;> simp [h]

@[simp] theorem State.repeatRequest_frame (c : Settings) (adopted : Epoch) :
    (s.repeatRequest c adopted).loader = s.loader ∧ (s.repeatRequest c adopted).port = s.port ∧
      (s.repeatRequest c adopted).command = s.command ∧ (s.repeatRequest c adopted).bus = s.bus ∧
      (s.repeatRequest c adopted).timer = s.timer ∧ (s.repeatRequest c adopted).store = s.store ∧
      (s.repeatRequest c adopted).members = s.members ∧ (s.repeatRequest c adopted).station = s.station ∧
      (s.repeatRequest c adopted).pixel = s.pixel ∧ (s.repeatRequest c adopted).choices = s.choices ∧
      (s.repeatRequest c adopted).pending = s.pending := by
  unfold State.repeatRequest
  split <;> simp

@[simp] theorem State.run_nil : s.run [] = s := rfl

@[simp] theorem State.run_cons (act : State → State) (acts : List (State → State)) :
    s.run (act :: acts) = (act s).run acts := rfl

/-- A mark is taken by the blocks of the timing and the wall, not by the loader, the command unit or the controller. -/
@[simp] theorem State.takeMark_frame (c : Settings) (adopted : Epoch) :
    (s.takeMark c adopted).loader = s.loader ∧ (s.takeMark c adopted).command = s.command ∧
      (s.takeMark c adopted).bus = s.bus ∧ (s.takeMark c adopted).pending = s.pending := by
  rcases s.markActions_cases c adopted with h | ⟨-, h | h⟩ <;> simp [State.takeMark, h]

/-! ### The data phase -/

@[simp] theorem State.readbackAbort_frame :
    s.readbackAbort.loader = s.loader ∧ s.readbackAbort.store = s.store ∧ s.readbackAbort.pixel = s.pixel ∧
      s.readbackAbort.choices = s.choices ∧ s.readbackAbort.pending = s.pending := by
  rcases s.readbackAbort_cases with ⟨-, h⟩ | ⟨-, h⟩ <;> simp [h]

@[simp] theorem State.slotOutcome_frame :
    s.slotOutcome.loader = s.loader ∧ s.slotOutcome.store = s.store ∧ s.slotOutcome.pixel = s.pixel ∧
      s.slotOutcome.choices = s.choices ∧ s.slotOutcome.pending = s.pending := by
  rcases s.slotOutcome_cases with ⟨-, h⟩ | ⟨-, -, ⟨-, h⟩ | ⟨-, h⟩⟩ <;> simp [h]

@[simp] theorem State.endSlot_frame :
    s.endSlot.loader = s.loader ∧ s.endSlot.command = s.slotOutcome.command ∧
      s.endSlot.bus = s.slotOutcome.bus.endSlot ∧ s.endSlot.timer = s.slotOutcome.timer ∧ s.endSlot.store = s.store ∧
      s.endSlot.members = s.slotOutcome.members ∧ s.endSlot.resync = s.slotOutcome.resync ∧
      s.endSlot.station = s.slotOutcome.station ∧ s.endSlot.pixel = s.pixel ∧ s.endSlot.port = s.slotOutcome.port ∧
      s.endSlot.choices = s.choices ∧ s.endSlot.pending = s.pending := by
  simp [State.endSlot]

@[simp] theorem State.takeHeader_frame (m : Message) :
    (s.takeHeader m).loader = s.loader ∧ (s.takeHeader m).command = s.command ∧ (s.takeHeader m).bus = s.bus ∧
      (s.takeHeader m).timer = s.timer ∧ (s.takeHeader m).store = s.store ∧ (s.takeHeader m).resync = s.resync ∧
      (s.takeHeader m).station = s.station ∧ (s.takeHeader m).pixel = s.pixel ∧
      (s.takeHeader m).choices = s.choices ∧ (s.takeHeader m).pending = s.pending := by
  unfold State.takeHeader
  split <;> simp

@[simp] theorem State.takeRequestBody_frame (rank : Rank) :
    (s.takeRequestBody rank).loader = s.loader ∧ (s.takeRequestBody rank).port = s.port ∧
      (s.takeRequestBody rank).command = s.command ∧ (s.takeRequestBody rank).bus = s.bus ∧
      (s.takeRequestBody rank).timer = s.timer ∧ (s.takeRequestBody rank).store = s.store ∧
      (s.takeRequestBody rank).resync = s.resync ∧ (s.takeRequestBody rank).station = s.station ∧
      (s.takeRequestBody rank).pixel = s.pixel ∧ (s.takeRequestBody rank).choices = s.choices ∧
      (s.takeRequestBody rank).pending = s.pending := by
  unfold State.takeRequestBody
  split <;> simp

@[simp] theorem State.install_frame (b : Fin 66) (values : List Item) :
    (s.install b values).loader = s.loader ∧ (s.install b values).command = s.command ∧
      (s.install b values).bus = s.bus ∧ (s.install b values).timer = s.timer ∧
      (s.install b values).store = s.store.writeAll values ∧ (s.install b values).pixel = s.pixel ∧
      (s.install b values).choices = s.choices ∧ (s.install b values).pending = s.pending := by
  unfold State.install
  dsimp only
  split <;> simp

@[simp] theorem State.takeBlock_frame (rank : Rank) (b : Fin 66) (epoch : Epoch) (values : List Item) :
    (s.takeBlock rank b epoch values).loader = s.loader ∧ (s.takeBlock rank b epoch values).command = s.command ∧
      (s.takeBlock rank b epoch values).bus = s.bus ∧ (s.takeBlock rank b epoch values).timer = s.timer ∧
      (s.takeBlock rank b epoch values).pixel = s.pixel ∧ (s.takeBlock rank b epoch values).choices = s.choices ∧
      (s.takeBlock rank b epoch values).pending = s.pending := by
  unfold State.takeBlock
  dsimp only
  split <;> simp

@[simp] theorem State.takeBody_frame (m : Message) :
    (s.takeBody m).loader = s.loader ∧ (s.takeBody m).command = s.command ∧ (s.takeBody m).bus = s.bus ∧
      (s.takeBody m).timer = s.timer ∧ (s.takeBody m).pixel = s.pixel ∧ (s.takeBody m).choices = s.choices ∧
      (s.takeBody m).pending = s.pending := by
  unfold State.takeBody
  split <;> simp [State.takeDoneBody]

@[simp] theorem State.takeValid_frame (m : Message) :
    (s.takeValid m).loader = s.loader ∧ (s.takeValid m).pixel = s.pixel ∧ (s.takeValid m).choices = s.choices ∧
      (s.takeValid m).pending = s.pending := by
  unfold State.takeValid
  split <;> simp

@[simp] theorem State.takeOwn_frame (m : Message) :
    (s.takeOwn m).loader = s.loader ∧ (s.takeOwn m).pixel = s.pixel ∧ (s.takeOwn m).choices = s.choices ∧
      (s.takeOwn m).pending = s.pending ∧ (s.takeOwn m).timer = s.timer ∧
      (s.takeOwn m).bus = { s.bus with chosen := none, aborts := 0 } := by
  simp [State.takeOwn]

@[simp] theorem State.takeMessage_frame (scheduled : Rank) (read : Option (List Byte)) :
    (s.takeMessage scheduled read).loader = s.loader ∧ (s.takeMessage scheduled read).pixel = s.pixel ∧
      (s.takeMessage scheduled read).choices = s.choices ∧ (s.takeMessage scheduled read).pending = s.pending := by
  rcases s.takeMessage_cases scheduled read with ⟨-, h⟩ | ⟨m, -, h⟩ | ⟨-, -, m, -, h⟩ | ⟨-, -, -, h⟩ <;> simp [h]

/-! ### Line and frame timing -/

@[simp] theorem State.countLine_frame (c : Settings) :
    (s.countLine c).loader = s.loader ∧ (s.countLine c).command = s.command ∧ (s.countLine c).bus = s.bus ∧
      (s.countLine c).timer = { s.timer with line := s.timer.line + 1 } ∧ (s.countLine c).resync = s.resync ∧
      (s.countLine c).station = s.station ∧
      (s.countLine c).pixel = (s.pixel.lineStart c (s.timer.line + 1) s.timer.line).1 ∧
      (s.countLine c).pending = s.pending := by
  by_cases h : s.timer.line + 1 = c.activeLines <;> simp [State.countLine, h]

@[simp] theorem State.listen_frame (c : Settings) :
    (s.listen c).loader = s.loader ∧ (s.listen c).command = s.command ∧ (s.listen c).bus = s.bus ∧
      (s.listen c).resync = s.resync ∧ (s.listen c).pixel = s.pixel ∧ (s.listen c).choices = s.choices ∧
      (s.listen c).pending = s.pending := by
  unfold State.listen
  repeat' split
  all_goals simp

@[simp] theorem State.endFrame_frame (c : Settings) :
    (s.endFrame c).loader = s.loader ∧ (s.endFrame c).command = s.command ∧ (s.endFrame c).bus = s.bus ∧
      (s.endFrame c).resync = s.resync ∧ (s.endFrame c).pixel = (s.pixel.lineStart c 0 s.timer.line).1 ∧
      (s.endFrame c).pending = s.pending := by
  simp [State.endFrame]

end

/-! ### The state after a command -/

/-- The state a command leads to. Every command answers a next state, so nothing is lost in the other outcomes. -/
def State.after (s : State) (c : Instr) : State :=
  match exec c s with
  | .next t => t
  | .fault _ | .refused _ => s

/-- No command stops the station (log 7). -/
theorem exec_eq_next (c : Instr) (s : State) : exec c s = .next (s.after c) := by
  cases c <;> rfl

theorem exec_next_iff {c : Instr} {s t : State} : exec c s = .next t ↔ s.after c = t := by
  rw [exec_eq_next]
  exact ⟨fun h => by cases h; rfl, fun h => by rw [h]⟩

/-- What every command keeps, and what the waiting queue plays no part in, every step keeps. -/
theorem step_invariant {Inv : State → Prop} (hqueue : ∀ s queue, Inv s → Inv (s.withQueue queue))
    (hafter : ∀ c s, Inv s → Inv (s.after c)) {s t : State} (h : step s = .next t) (hs : Inv s) : Inv t := by
  rcases step_cases h with ⟨-, rfl⟩ | ⟨c, rest, -, hexec⟩
  · exact hs
  · rw [exec_next_iff] at hexec
    exact hexec ▸ hafter c _ (hqueue s rest hs)

end Sys2Proof.Machine
end

section
/-! The report queue and the queue of waiting commands decide nothing (R151; logs 1 and 7): every command acts alike on two
stations that differ in nothing else. -/

namespace Sys2Proof.Machine

-- One thread, as for the tests: proofs elaborated side by side would exceed the build's memory limit.
set_option Elab.async false

/-! ### Actions that look at neither queue -/

/-- The station with another source port and other commands waiting. -/
abbrev State.rebased (s : State) (port : SourcePort) (waiting : List Instr) : State :=
  { s with port := port, pending := waiting }

/-- On a station with another source port that holds the same command, and with other commands waiting, the action does
what it does on the station itself, but for the source port; with the same source port it does the same there too. -/
def BlindAt (act : State → State) (s : State) : Prop :=
  ∀ (port : SourcePort) (waiting : List Instr), port.assembly = s.port.assembly →
    ∃ port', port'.assembly = (act s).port.assembly ∧ (port = s.port → port' = (act s).port) ∧
      act (s.rebased port waiting) = (act s).rebased port' waiting

/-- The action looks at neither queue, at any station. -/
def Blind (act : State → State) : Prop := ∀ s, BlindAt act s

variable {act act' : State → State}

theorem Blind.id : Blind fun s => s := fun _ port _ h => ⟨port, h, fun e => e, rfl⟩

theorem Blind.comp (h' : Blind act') (h : Blind act) : Blind fun s => act' (act s) := by
  intro s port waiting hport
  obtain ⟨port₁, hassembly, hsame, heq⟩ := h s port waiting hport
  obtain ⟨port₂, hassembly', hsame', heq'⟩ := h' (act s) port₁ waiting hassembly
  exact ⟨port₂, hassembly', fun e => hsame' (hsame e), by simp only [heq, heq']⟩

/-- A blind action on every branch of a test that looks at neither queue. -/
theorem Blind.ite {test : State → Prop} [DecidablePred test]
    (htest : ∀ s port waiting, test (s.rebased port waiting) ↔ test s) (h : Blind act) (h' : Blind act') :
    Blind fun s => if test s then act s else act' s := by
  intro s port waiting hport
  by_cases ht : test s
  · simpa only [htest, ht, if_true] using h s port waiting hport
  · simpa only [htest, ht, if_false] using h' s port waiting hport

/-- An action that queues the records a station's other blocks give. -/
theorem Blind.of_queues (records : State → List Record)
    (h : ∀ s port waiting, act (s.rebased port waiting) = (act s).rebased (port.enqueueAll (records s)) waiting)
    (hport : ∀ s, (act s).port = s.port.enqueueAll (records s)) : Blind act :=
  fun s port waiting hassembly =>
    ⟨port.enqueueAll (records s), by simp [hport, hassembly], fun e => by rw [hport, e], h s port waiting⟩

theorem Blind.report (r : Record) : Blind (State.report · r) :=
  Blind.of_queues (fun _ => [r]) (fun _ _ _ => rfl) fun _ => rfl

theorem Blind.reportAll (rs : List Record) : Blind (State.reportAll · rs) :=
  Blind.of_queues (fun _ => rs) (fun _ _ _ => rfl) fun _ => rfl

theorem Blind.runUnit (f : CommandUnit → CommandUnit × List Record) : Blind (State.runUnit · f) :=
  Blind.of_queues (fun s => (f s.command).2) (fun _ _ _ => rfl) fun _ => rfl

theorem Blind.runPixel (f : PixelPath → PixelPath × List Record) : Blind (State.runPixel · f) :=
  Blind.of_queues (fun s => (f s.pixel).2) (fun _ _ _ => rfl) fun _ => rfl

/-- An action that queues nothing. -/
theorem Blind.of_rebased (h : ∀ s port waiting, act (s.rebased port waiting) = (act s).rebased port waiting)
    (hport : ∀ s, (act s).port = s.port) : Blind act :=
  Blind.of_queues (fun _ => []) h hport

/-- Several blind actions, one after the other. -/
theorem Blind.run {acts : List (State → State)} (h : ∀ act ∈ acts, Blind act) : Blind (State.run · acts) := by
  induction acts with
  | nil => exact Blind.id
  | cons act acts ih => exact (ih fun a ha => h a (List.mem_cons_of_mem _ ha)).comp (h act (List.mem_cons_self ..))

/-- Where a value of the station selects a branch of an action, the action is blind at that station if the branch is. -/
theorem Blind.at_eq {s : State} (h : Blind act')
    (heq : ∀ port waiting, act (s.rebased port waiting) = act' (s.rebased port waiting)) : BlindAt act s := by
  have hself : act s = act' s := heq s.port s.pending
  intro port waiting hport
  rw [hself, heq]
  exact h s port waiting hport

/-! ### The shared operations -/

theorem eitherOrder_blind {records : List Record} {queues : Bool} (h : Blind act) :
    Blind (State.eitherOrder · records queues act) := by
  intro s port waiting hport
  obtain ⟨port₁, hassembly, hsame, heq⟩ := (Blind.reportAll records).comp h s port waiting hport
  obtain ⟨port₂, hassembly', hsame', heq'⟩ := h.comp (Blind.reportAll records) s port waiting hport
  obtain ⟨port₃, hassembly'', hsame'', heq''⟩ := h s port waiting hport
  dsimp only at heq heq' hassembly hassembly' hsame hsame' ⊢
  unfold State.eitherOrder
  split
  · exact ⟨port₁, hassembly, hsame, heq⟩
  · simp only [heq', heq'']
    split
    · exact ⟨_, hassembly', hsame', rfl⟩
    · exact ⟨_, by simp [hassembly''], fun e => by rw [hsame'' e], rfl⟩

theorem applyClosed_blind (torn : Bool) : Blind (State.applyClosed · torn) := by
  intro s
  cases hclosed : s.store.closed with
  | none => exact Blind.id.at_eq fun _ _ => by simp [State.applyClosed, hclosed]
  | some g =>
    exact Blind.at_eq
      (act' := fun s =>
        { s with
          store := s.store.applyGeneration g
          port := s.port.enqueueAll (applyRecords g torn)
          members := s.members.buildRecord (s.store.applyGeneration g).digest })
      (Blind.of_queues (fun _ => applyRecords g torn) (fun _ _ _ => rfl) fun _ => rfl)
      fun _ _ => by simp [State.applyClosed, hclosed]

theorem beginLine_blind (c : Settings) (line : Nat) : Blind (State.beginLine · c line) :=
  fun _ _ _ h => ⟨_, by simp [h], fun e => by rw [e]; rfl, rfl⟩

theorem outcomeAborted_blind : Blind State.outcomeAborted := by
  have hrelease : Blind fun s => { s with bus := { s.bus with chosen := none } } :=
    Blind.of_rebased (fun _ _ _ => rfl) fun _ => rfl
  intro s
  rcases s.outcomeAborted_cases with ⟨hchosen, -⟩ | ⟨hchosen, -⟩
  · exact (hrelease.comp (Blind.runUnit CommandUnit.batchAborted)).at_eq fun _ _ => by
      simp [State.outcomeAborted, hchosen]
  · refine hrelease.at_eq fun _ _ => ?_
    unfold State.outcomeAborted
    split
    · exact absurd ‹_› hchosen
    · rfl

theorem outcomeClean_blind (kind : MessageKind) : Blind (State.outcomeClean · kind) := by
  cases kind with
  | update => exact Blind.of_queues (fun s => (s.command.batchClean s.timer.epoch).2) (fun _ _ _ => rfl) fun _ => rfl
  | audit =>
    intro s
    cases hstage : s.members.stage with
    | pending k =>
      exact Blind.at_eq (act' := fun s => { s with members := { s.members with stage := .sent k } })
        (Blind.of_rebased (fun _ _ _ => rfl) fun _ => rfl) fun _ _ => by simp [State.outcomeClean, hstage]
    | none | awaitingApply _ | sent _ => exact Blind.id.at_eq fun _ _ => by simp [State.outcomeClean, hstage]
  | resyncRequest | resyncDone | block => exact Blind.of_rebased (fun _ _ _ => rfl) fun _ => rfl

theorem diverge_blind (cause : DivergeCause) : Blind (State.diverge · cause) :=
  Blind.of_queues (fun _ => [.event (.diverged cause)]) (fun _ _ _ => rfl) fun _ => rfl

theorem repaired_blind (event : Event) : Blind (State.repaired · event) :=
  Blind.of_queues (fun _ => [.event event]) (fun _ _ _ => rfl) fun _ => rfl

theorem mute_blind (cause : MuteCause) : Blind (State.mute · cause) :=
  Blind.ite (fun _ _ _ => Iff.rfl) Blind.id
    (Blind.of_queues (fun s => .event (.muted cause) :: s.command.dropAll.2) (fun _ _ _ => rfl) fun _ => rfl)

theorem receiveError_blind : Blind State.receiveError := by
  intro s
  cases hstate : s.station.state with
  | inStep => exact (diverge_blind .receiveError).at_eq fun _ _ => by simp [State.receiveError, hstate]
  | joining | diverged =>
    exact Blind.at_eq (act' := fun s => { s with resync := { s.resync with received := noBlocks } })
      (Blind.of_rebased (fun _ _ _ => rfl) fun _ => rfl) fun _ _ => by simp [State.receiveError, hstate]
  | muted =>
    exact Blind.at_eq (act' := fun s => { s with bus := { s.bus with suspect := true } })
      (Blind.of_rebased (fun _ _ _ => rfl) fun _ => rfl) fun _ _ => by simp [State.receiveError, hstate]
  | listening | configuring | configFault =>
    exact Blind.id.at_eq fun _ _ => by simp [State.receiveError, hstate]

/-! ### The bus outside the data phase -/

theorem fieldFault_blind : Blind State.fieldFault := by
  suffices h : Blind State.receiveErrorAndAbort from
    Blind.comp (act' := fun s => { s with bus := s.bus.leaveRound .seeking })
      (Blind.of_rebased (fun _ _ _ => rfl) fun _ => rfl) h
  intro s
  by_cases hchosen : s.bus.chosen = some .update
  · refine Blind.at_eq (act' := fun t => State.eitherOrder
        { t with command := s.command.batchAborted.1, bus := { s.bus with chosen := none } }
        s.command.batchAborted.2 (s.station.state = .inStep) State.receiveError)
      ((eitherOrder_blind receiveError_blind).comp (Blind.of_rebased (fun _ _ _ => rfl) fun _ => rfl)) fun _ _ => ?_
    simp [State.receiveErrorAndAbort, hchosen]
  · refine (outcomeAborted_blind.comp receiveError_blind).at_eq fun _ _ => ?_
    unfold State.receiveErrorAndAbort
    split
    · exact absurd ‹_› hchosen
    · rfl

theorem select_blind : Blind State.select := by
  refine Blind.of_rebased (fun s port waiting => ?_) fun s => by simp
  have hcandidate : (s.rebased port waiting).candidate = s.candidate := rfl
  unfold State.select
  rw [hcandidate]
  cases s.candidate <;> rfl

/-! ### The source port's commands -/

theorem takeCommand_blind (payload : Word) (kind : Option CommandKind) {act : State → Command → State}
    (h : ∀ c, Blind (act · c)) : Blind (State.takeCommand · payload kind act) := by
  intro s port waiting hport
  unfold State.takeCommand
  simp only [hport]
  cases assemble s.port.assembly payload with
  | incomplete a => exact ⟨_, hport, fun e => e, rfl⟩
  | complete c =>
    dsimp only
    split
    · obtain ⟨port', hassembly, hsame, heq⟩ :=
        h c { s with port := { s.port with assembly := none } } { port with assembly := none } waiting rfl
      exact ⟨port', hassembly, fun e => hsame (by rw [e]), heq⟩
    · exact ⟨_, hport, fun e => e, rfl⟩

theorem takeRequest_blind (tag : Tag) (request : Request) : Blind (State.takeRequest · tag request) := by
  cases request with
  | malformed => exact Blind.report _
  | outOfRange => exact Blind.ite (fun _ _ _ => Iff.rfl) (Blind.report _) (Blind.report _)
  | items items =>
    refine Blind.ite (fun _ _ _ => Iff.rfl) (Blind.report _) (Blind.ite (fun _ _ _ => Iff.rfl) ?_ (Blind.report _))
    exact Blind.of_queues (fun _ => [.accepted tag]) (fun _ _ _ => rfl) fun _ => rfl

theorem withdraw_blind (tag : Tag) : Blind (State.withdraw · tag) :=
  Blind.of_queues (fun s => .accepted tag :: s.command.withdrawn.2) (fun _ _ _ => rfl) fun _ => rfl

theorem rejoin_blind (tag : Tag) : Blind (State.rejoin · tag) :=
  Blind.of_queues (fun s => .accepted tag :: s.command.dropAll.2) (fun _ _ _ => rfl) fun _ => rfl

theorem readTarget_blind (tag : Tag) (args : List Word) : Blind (State.readTarget · tag args) := by
  unfold State.readTarget
  split
  · split
    · exact Blind.of_queues (fun s => [.value tag (s.store.wall.item _)]) (fun _ _ _ => rfl) fun _ => rfl
    · exact Blind.report _
  · exact Blind.report _

theorem endAssembly_blind : Blind State.endAssembly := by
  intro s port waiting h
  unfold State.endAssembly
  simp only [h]
  cases s.port.assembly with
  | none => exact ⟨_, h, fun e => e, rfl⟩
  | some a => exact ⟨_, by simp, fun e => by rw [e], rfl⟩

theorem handPixel_blind (payload : Word) : Blind (State.handPixel · payload) := by
  intro s
  cases hconfig : s.loader.config with
  | none => exact Blind.id.at_eq fun _ _ => by simp [State.handPixel, hconfig]
  | some c =>
    by_cases hrunning : s.timer.running = true
    · exact (Blind.runPixel (PixelPath.take c s.timer.line payload)).at_eq fun port waiting =>
        State.handPixel_of_running (s := s.rebased port waiting) payload hconfig hrunning
    · exact Blind.id.at_eq fun port waiting =>
        State.handPixel_of_stopped (s := s.rebased port waiting) payload (by simpa using hrunning)

/-! ### The mark -/

theorem catchUp_blind (c : Settings) (behind : Nat) : Blind (State.catchUp · c behind) := by
  refine Blind.ite (fun _ _ _ => Iff.rfl) (Blind.ite (fun _ _ _ => Iff.rfl) ?_ ?_) ?_
  · exact Blind.of_rebased (fun _ _ _ => rfl) fun _ => rfl
  · exact (beginLine_blind c 0).comp
      (Blind.of_rebased (act := fun s => { s with timer := { s.timer with phase := .waiting } }) (fun _ _ _ => rfl)
        fun _ => rfl)
  · exact (beginLine_blind c 0).comp
      (Blind.of_queues (fun _ => [.event (.timingJump (-(behind : Int)))]) (fun _ _ _ => rfl) fun _ => rfl)

theorem correct_blind (c : Settings) : Blind (State.correct · c) := by
  intro s
  cases hphase : s.timer.phase with
  | ended =>
    exact Blind.at_eq (act' := fun s => { s with timer := { s.timer with phase := .waiting } })
      (Blind.of_rebased (fun _ _ _ => rfl) fun _ => rfl) fun _ _ => by simp [State.correct, hphase]
  | waiting | covered =>
    exact (catchUp_blind c (c.totalLines - s.timer.line)).at_eq fun _ _ => by simp [State.correct, hphase]

theorem timerMark_blind (c : Settings) (adopted : Epoch) : Blind (State.timerMark · c adopted) :=
  (correct_blind c).comp
    (Blind.of_queues (fun s => slipRecords s.timer.epoch s.epochDrive adopted) (fun _ _ _ => rfl) fun _ => rfl)

theorem storeMark_blind (c : Settings) (line : Nat) (adopted : Epoch) (offset : Int) :
    Blind (State.storeMark · c line adopted offset) := by
  have hclose : Blind fun s => { s.applyClosed true with store := (s.applyClosed true).store.close adopted offset } :=
    Blind.comp (act' := fun s => { s with store := s.store.close adopted offset })
      (Blind.of_rebased (fun _ _ _ => rfl) fun _ => rfl) (applyClosed_blind true)
  refine Blind.ite (fun _ _ _ => Iff.rfl) ?_ (Blind.of_rebased (fun _ _ _ => rfl) fun _ => rfl)
  exact Blind.ite (fun _ _ _ => Iff.rfl) ((applyClosed_blind false).comp hclose) hclose

theorem openWindow_blind (e : Epoch) : Blind (State.openWindow · e) :=
  Blind.of_rebased (fun _ _ _ => rfl) fun _ => rfl

theorem closeWindow_blind (w : AuditWindow) : Blind (State.closeWindow · w) := by
  have hdecide : Blind fun s =>
      { s with members := s.members.decide.clearAudit, port := s.port.enqueueAll (s.members.lateRecords w) } :=
    Blind.of_queues (fun s => s.members.lateRecords w) (fun _ _ _ => rfl) fun _ => rfl
  exact Blind.ite (fun _ _ _ => Iff.rfl) ((diverge_blind .auditMismatch).comp hdecide) hdecide

theorem windowMark_blind (c : Settings) (adopted : Epoch) : Blind (State.windowMark · c adopted) := by
  intro s
  cases hwindow : s.members.window with
  | none =>
    exact Blind.at_eq
      (Blind.ite (test := fun _ => auditEpoch c adopted = true) (fun _ _ _ => Iff.rfl) (openWindow_blind adopted)
        Blind.id)
      fun _ _ => by simp [State.windowMark, hwindow]
  | some w =>
    refine Blind.at_eq
      (Blind.ite (test := fun _ => auditEpoch c adopted = true) (fun _ _ _ => Iff.rfl)
        ((openWindow_blind adopted).comp (closeWindow_blind w))
        (Blind.ite (test := fun _ => w.marks = 0) (fun _ _ _ => Iff.rfl)
          (act := fun s => { s with members := { s.members with window := some { w with marks := 1 } } })
          (Blind.of_rebased (fun _ _ _ => rfl) fun _ => rfl) (closeWindow_blind w)))
      fun _ _ => by simp [State.windowMark, hwindow]

theorem memberMark_blind (c : Settings) (old : Option Epoch) (adopted : Epoch) :
    Blind (State.memberMark · c old adopted) := by
  cases old with
  | none =>
    exact Blind.ite (test := fun _ => auditEpoch c adopted = true) (fun _ _ _ => Iff.rfl) (openWindow_blind adopted)
      Blind.id
  | some old =>
    have hcheck : Blind (State.checkSilence · c adopted) :=
      Blind.of_queues (fun s => s.members.lostRecords c s.rank? adopted) (fun _ _ _ => rfl) fun _ => rfl
    exact ((windowMark_blind c adopted).comp hcheck).comp (Blind.of_rebased (fun _ _ _ => rfl) fun _ => rfl)

theorem stationMark_blind : Blind State.stationMark :=
  Blind.ite (fun _ _ _ => Iff.rfl) (Blind.of_rebased (fun _ _ _ => rfl) fun _ => rfl) Blind.id

theorem waitMark_blind (c : Settings) (repairingBefore eligibleBefore : Bool) :
    Blind (State.waitMark · c repairingBefore eligibleBefore) := by
  refine Blind.ite (fun _ _ _ => Iff.rfl) (Blind.ite (fun _ _ _ => Iff.rfl) ?_ ?_) ?_
  · exact (repaired_blind .selfPromoted).comp (Blind.of_rebased (fun _ _ _ => rfl) fun _ => rfl)
  · exact Blind.of_rebased (fun _ _ _ => rfl) fun _ => rfl
  · exact Blind.of_rebased (fun _ _ _ => rfl) fun _ => rfl

theorem repeatRequest_blind (c : Settings) (adopted : Epoch) : Blind (State.repeatRequest · c adopted) :=
  Blind.ite (fun _ _ _ => Iff.rfl) (Blind.of_rebased (fun _ _ _ => rfl) fun _ => rfl) Blind.id

theorem markActions_blind (s : State) (c : Settings) (adopted : Epoch) :
    ∀ act ∈ s.markActions c adopted, Blind act := by
  have htimer := timerMark_blind c adopted
  have hstore := storeMark_blind c s.timer.line adopted (offsetAt c s.timer.phase s.timer.line)
  have hmembers := (memberMark_blind c s.timer.epoch adopted).comp stationMark_blind
  have hresync := waitMark_blind c s.station.state.repairing s.anyEligible
  rcases s.markActions_cases c adopted with h | ⟨-, h | h⟩ <;> rw [h] <;>
    simp only [List.forall_mem_cons, List.not_mem_nil, false_implies, implies_true, and_true] <;>
    simp only [htimer, hstore, hmembers, hresync, and_self]

theorem takeMark_blind (c : Settings) (adopted : Epoch) : Blind (State.takeMark · c adopted) := by
  intro s port waiting hport
  have hacts := markActions_blind s c adopted
  obtain ⟨port₁, -, -, heq⟩ := (repeatRequest_blind c adopted).comp (Blind.run hacts) s port waiting hport
  have hqueued : Blind fun t => t.run
      ((s.markActions c adopted).insertIdx (Config.choice (s.choices + 1) % 5) fun t =>
        t.reportAll (s.markLineRecords c)) := by
    refine Blind.run fun act hact => ?_
    rcases List.eq_or_mem_of_mem_insertIdx hact with rfl | hact
    · exact Blind.reportAll _
    · exact hacts act hact
  have hmarkPort : ∃ port', port'.assembly = (s.markPort c adopted).assembly ∧
      (port = s.port → port' = s.markPort c adopted) ∧ (s.rebased port waiting).markPort c adopted = port' := by
    have hactions : (s.rebased port waiting).markActions c adopted = s.markActions c adopted := rfl
    have hrecords : (s.rebased port waiting).markLineRecords c = s.markLineRecords c := rfl
    unfold State.markPort
    simp only [hactions, hrecords]
    split
    · obtain ⟨port', hassembly, hsame, heq'⟩ := Blind.run hacts s port waiting hport
      exact ⟨port', hassembly, hsame, congrArg State.port heq'⟩
    · obtain ⟨port', hassembly, hsame, heq'⟩ := hqueued s port waiting hport
      exact ⟨port', hassembly, hsame, congrArg State.port heq'⟩
  obtain ⟨port', hassembly, hsame, hport'⟩ := hmarkPort
  refine ⟨port', hassembly, hsame, ?_⟩
  have hactions : (s.rebased port waiting).markActions c adopted = s.markActions c adopted := rfl
  have hchoices : (s.rebased port waiting).markChoices c = s.markChoices c := rfl
  dsimp only at heq
  simp only [State.takeMark, hactions, hchoices, hport', heq]

/-! ### The data phase -/

theorem readbackAbort_blind : Blind State.readbackAbort :=
  Blind.comp
    (act' := fun t => if Config.abortLimit ≤ t.bus.aborts then t.mute .repeatedAbort else t)
    (act := fun s =>
      { s.outcomeAborted with bus := { s.outcomeAborted.bus with aborts := s.outcomeAborted.bus.aborts + 1 } })
    (Blind.ite (fun _ _ _ => Iff.rfl) (mute_blind _) Blind.id)
    (Blind.comp (act' := fun t => { t with bus := { t.bus with aborts := t.bus.aborts + 1 } })
      (Blind.of_rebased (fun _ _ _ => rfl) fun _ => rfl) outcomeAborted_blind)

theorem endSlot_blind : Blind State.endSlot :=
  Blind.comp (act' := fun t => { t with bus := t.bus.endSlot }) (Blind.of_rebased (fun _ _ _ => rfl) fun _ => rfl)
    (Blind.ite (fun _ _ _ => Iff.rfl) (Blind.ite (fun _ _ _ => Iff.rfl) readbackAbort_blind outcomeAborted_blind)
      Blind.id)

theorem takeHeader_blind (m : Message) : Blind (State.takeHeader · m) := by
  intro s
  cases hepoch : s.timer.epoch with
  | none => exact Blind.id.at_eq fun _ _ => by simp [State.takeHeader, hepoch]
  | some e =>
    exact Blind.at_eq
      (act' := fun s =>
        { s with
          members := s.members.update m.rank (Peer.heard · m.state e)
          port := s.port.enqueueAll (foundRecords s.rank? m.rank (s.peer m.rank)) })
      (Blind.of_queues (fun s => foundRecords s.rank? m.rank (s.peer m.rank)) (fun _ _ _ => rfl) fun _ => rfl)
      fun _ _ => by simp only [State.takeHeader, hepoch]

theorem takeBlock_blind (rank : Rank) (b : Fin 66) (epoch : Epoch) (values : List Item) :
    Blind (State.takeBlock · rank b epoch values) := by
  have hfollow : Blind fun s => { s with resync := s.resync.seeBlock b } :=
    Blind.of_rebased (fun _ _ _ => rfl) fun _ => rfl
  have hwrite : Blind fun s => { s with store := s.store.writeAll values, resync := s.resync.receive b } :=
    Blind.of_rebased (fun _ _ _ => rfl) fun _ => rfl
  have hinstall : Blind (State.install · b values) :=
    Blind.comp (act' := fun t => if t.resync.full then t.repaired .joined else t)
      (Blind.ite (fun _ _ _ => Iff.rfl) (repaired_blind .joined) Blind.id) hwrite
  exact Blind.ite (fun _ _ _ => Iff.rfl) (hinstall.comp hfollow) hfollow

theorem takeBody_blind (m : Message) : Blind (State.takeBody · m) := by
  unfold State.takeBody
  cases m.body with
  | update items => exact Blind.of_rebased (fun _ _ _ => rfl) fun _ => rfl
  | audit epoch digest => exact Blind.of_rebased (fun _ _ _ => rfl) fun _ => rfl
  | resyncRequest =>
    exact Blind.ite (fun _ _ _ => Iff.rfl) (Blind.of_rebased (fun _ _ _ => rfl) fun _ => rfl) Blind.id
  | resyncDone => exact Blind.of_rebased (fun _ _ _ => rfl) fun _ => rfl
  | block b epoch values => exact takeBlock_blind m.rank b epoch values

theorem takeMessage_blind (scheduled : Rank) (read : Option (List Byte)) :
    Blind (State.takeMessage · scheduled read) := by
  have hvalid : ∀ m : Message, Blind (State.takeValid · m) := fun m =>
    Blind.ite (fun _ _ _ => Iff.rfl) ((takeBody_blind m).comp (mute_blind _))
      ((takeBody_blind m).comp (takeHeader_blind m))
  have hown : ∀ m : Message, Blind (State.takeOwn · m) := fun m =>
    ((outcomeClean_blind m.body.kind).comp ((takeBody_blind m).comp (takeHeader_blind m))).comp
      (act := fun s => { s with bus := { s.bus with chosen := none, aborts := 0 } })
      (Blind.of_rebased (fun _ _ _ => rfl) fun _ => rfl)
  intro s
  rcases s.takeMessage_cases scheduled read with ⟨hdrive, -⟩ | ⟨m, hsent, -⟩ | ⟨hsent, hdrive, m, hread, -⟩ |
    ⟨hsent, hdrive, hread, -⟩
  · exact Blind.id.at_eq fun _ _ => by simp [State.takeMessage, hdrive]
  · refine (hown m).at_eq fun _ _ => ?_
    have hdrive : s.bus.drive ≠ .abortPattern := fun h => by simp [h, Drive.transmitting] at hsent
    simp [State.takeMessage, hdrive, hsent]
  · exact (hvalid m).at_eq fun _ _ => by simp [State.takeMessage, hdrive, hsent, hread]
  · exact receiveError_blind.at_eq fun _ _ => by simp [State.takeMessage, hdrive, hsent, hread]

/-! ### Line and frame timing -/

theorem countLine_blind (c : Settings) : Blind (State.countLine · c) := by
  intro s
  refine Blind.at_eq
    (act' := fun t => (t.beginLine c (s.timer.line + 1)).eitherOrder (s.lineRecords c (s.timer.line + 1))
      (decide (s.timer.line + 1 = c.activeLines) && s.store.closed.isSome)
      fun t => if s.timer.line + 1 = c.activeLines then t.applyClosed false else t)
    ((eitherOrder_blind ?_).comp (beginLine_blind c _)) fun _ _ => rfl
  exact Blind.ite (test := fun _ => s.timer.line + 1 = c.activeLines) (fun _ _ _ => Iff.rfl)
    (applyClosed_blind false) Blind.id

theorem listen_blind (c : Settings) : Blind (State.listen · c) :=
  Blind.ite (fun _ _ _ => Iff.rfl) (Blind.of_queues (fun _ => [.event .founded]) (fun _ _ _ => rfl) fun _ => rfl)
    (Blind.ite (fun _ _ _ => Iff.rfl) (Blind.of_rebased (fun _ _ _ => rfl) fun _ => rfl) Blind.id)

theorem endFrame_blind (c : Settings) : Blind (State.endFrame · c) := by
  intro s
  refine Blind.at_eq
    (act' := fun t => State.eitherOrder
      { t.beginLine c 0 with timer := (t.beginLine c 0).timer.frameEnd (t.beginLine c 0).active }
      (s.lineRecords c 0) (s.founds c) fun t => t.listen c)
    ((eitherOrder_blind (listen_blind c)).comp
      (Blind.comp (act' := fun t => { t with timer := t.timer.frameEnd t.active })
        (Blind.of_rebased (fun _ _ _ => rfl) fun _ => rfl) (beginLine_blind c 0))) fun _ _ => rfl

/-! ### Every command -/

/-- An action that needs the configuration. -/
theorem Blind.ofConfig {act : Settings → State → State} (h : ∀ c, Blind (act c)) :
    Blind fun s => match s.loader.config with
      | some c => act c s
      | none => s := by
  intro s
  cases hconfig : s.loader.config with
  | none => exact Blind.id.at_eq fun _ _ => by simp only [hconfig]
  | some c => exact (h c).at_eq fun _ _ => by simp only [hconfig]

theorem commandWord_blind (payload : Word) : Blind (State.after · (.commandWord payload)) := by
  intro s port waiting h
  simp only [State.after, exec, execCommandWord, h]
  cases assemble s.port.assembly payload with
  | incomplete a => exact ⟨{ port with assembly := some a }, rfl, fun e => by rw [e], rfl⟩
  | complete c => exact ⟨_, h, fun e => e, rfl⟩

/-- The port when the return lane has sent the head record, if there is one (R152). -/
def SourcePort.finishRecord (p : SourcePort) : SourcePort :=
  match p.reports with
  | r :: rest => { p with reports := rest, sentWords := r.words }
  | [] => p

@[simp] theorem SourcePort.finishRecord_assembly (p : SourcePort) : p.finishRecord.assembly = p.assembly := by
  unfold SourcePort.finishRecord
  split <;> rfl

theorem after_recordSent (s : State) : s.after .recordSent = { s with port := s.port.finishRecord } := by
  simp only [State.after, exec, execRecordSent, SourcePort.finishRecord]
  cases s.port.reports <;> rfl

theorem recordSent_blind : Blind (State.after · .recordSent) := by
  intro s port waiting h
  refine ⟨port.finishRecord, ?_, fun e => ?_, ?_⟩
  · simp [after_recordSent, h]
  · simp [after_recordSent, e]
  · simp [after_recordSent]

theorem configurationComplete_blind (read : Option (List Byte)) :
    Blind (State.after · (.configurationComplete read)) := by
  refine Blind.ite (test := fun s => s.station.state = .configuring) (fun _ _ _ => Iff.rfl)
    (act := fun s => match validate read with
      | .valid c => s.configured c
      | .fault reason => s.configFaulted reason) ?_ Blind.id
  cases validate read with
  | valid c => exact fun s port _ h => ⟨{ port with cue := some (cueOf c 0) }, h, fun e => by rw [e]; rfl, rfl⟩
  | fault reason => exact Blind.of_queues (fun _ => [.event (.configFault reason)]) (fun _ _ _ => rfl) fun _ => rfl

theorem startPulse_blind : Blind (State.after · .startPulse) := by
  intro s
  cases hround : s.bus.round with
  | off => exact Blind.id.at_eq fun _ _ => by simp [State.after, exec, execStartPulse, hround]
  | fields => exact fieldFault_blind.at_eq fun _ _ => by simp [State.after, exec, execStartPulse, hround]
  | data =>
    exact Blind.at_eq (act' := fun s => { s with bus := { s.bus with slotDamaged := true } })
      (Blind.of_rebased (fun _ _ _ => rfl) fun _ => rfl) fun _ _ => by
        simp [State.after, exec, execStartPulse, hround]
  | seeking | gap | idle =>
    exact Blind.at_eq (act' := fun s => { s with bus := s.bus.followRound s.active })
      (Blind.of_rebased (fun _ _ _ => rfl) fun _ => rfl) fun _ _ => by
        simp [State.after, exec, execStartPulse, hround]

theorem transmit_blind : Blind (State.after · .transmit) := by
  refine Blind.ite (fun _ _ _ => Iff.rfl) (act := fun s => match s.outgoing with
    | some m => { s with bus := { s.bus with drive := .message m } }
    | none => s) ?_ Blind.id
  refine Blind.of_rebased (fun s port waiting => ?_) fun s => ?_
  · have houtgoing : (s.rebased port waiting).outgoing = s.outgoing := rfl
    rw [houtgoing]
    cases s.outgoing <;> rfl
  · cases s.outgoing <;> rfl

theorem readbackMismatch_blind : Blind (State.after · .readbackMismatch) := by
  intro s
  cases hsent : s.bus.drive.transmitting with
  | none => exact Blind.id.at_eq fun _ _ => by simp [State.after, exec, execReadbackMismatch, hsent]
  | some m =>
    exact Blind.at_eq (act' := fun s => { s with bus := { s.bus with drive := .abortPattern } })
      (Blind.of_rebased (fun _ _ _ => rfl) fun _ => rfl) fun _ _ => by
        simp [State.after, exec, execReadbackMismatch, hsent]

theorem messageReceived_blind (read : Option (List Byte)) : Blind (State.after · (.messageReceived read)) := by
  intro s
  cases hrank : s.slotRank with
  | none =>
    refine Blind.id.at_eq fun port waiting => ?_
    have hrank' : (s.rebased port waiting).slotRank = none := hrank
    simp only [State.after, exec, execMessageReceived, hrank']
  | some r =>
    refine (endSlot_blind.comp (takeMessage_blind r read)).at_eq fun port waiting => ?_
    have hrank' : (s.rebased port waiting).slotRank = some r := hrank
    simp only [State.after, exec, execMessageReceived, hrank']

/-- No command looks at the report queue or at the commands that wait. -/
theorem after_blind (c : Instr) : Blind (State.after · c) := by
  cases c with
  | reset => exact fun _ _ _ _ => ⟨SourcePort.reset, rfl, fun _ => rfl, rfl⟩
  | configurationComplete read => exact configurationComplete_blind read
  | pixelWord payload => exact (handPixel_blind payload).comp endAssembly_blind
  | commandWord payload => exact commandWord_blind payload
  | unknownCommand payload => exact takeCommand_blind payload none fun c => Blind.report _
  | setColors payload | setPointerRow payload | movePointer payload | pointerVisibility payload =>
    exact takeCommand_blind payload _ fun c => takeRequest_blind c.tag _
  | withdraw payload =>
    exact takeCommand_blind payload _ fun c =>
      Blind.ite (test := fun _ => c.args = []) (fun _ _ _ => Iff.rfl) (withdraw_blind c.tag) (Blind.report _)
  | readTarget payload => exact takeCommand_blind payload _ fun c => readTarget_blind c.tag c.args
  | status payload =>
    exact takeCommand_blind payload _ fun c =>
      Blind.ite (test := fun _ => c.args = []) (fun _ _ _ => Iff.rfl)
        (Blind.of_queues (fun s => [.status c.tag s.statusFields]) (fun _ _ _ => rfl) fun _ => rfl) (Blind.report _)
  | rejoin payload =>
    exact takeCommand_blind payload _ fun c =>
      Blind.ite (test := fun _ => c.args ≠ []) (fun _ _ _ => Iff.rfl) (Blind.report _)
        (Blind.ite (fun _ _ _ => Iff.rfl) (rejoin_blind c.tag) (Blind.report _))
  | recordSent => exact recordSent_blind
  | lineStart =>
    exact Blind.ofConfig fun c => Blind.ite (fun _ _ _ => Iff.rfl) (countLine_blind c) Blind.id
  | naturalFrameEnd =>
    exact Blind.ofConfig fun c => Blind.ite (fun _ _ _ => Iff.rfl) (endFrame_blind c) Blind.id
  | seekGap | driveStartPulse | originField _ | markSlot _ | reservationField _ =>
    exact Blind.ite (fun _ _ _ => Iff.rfl) (Blind.of_rebased (fun _ _ _ => rfl) fun _ => rfl) Blind.id
  | idleGap | dominantLevel => exact Blind.of_rebased (fun _ _ _ => rfl) fun _ => rfl
  | startPulse => exact startPulse_blind
  | mark others =>
    refine Blind.ofConfig fun c => Blind.ite (fun _ _ _ => Iff.rfl) ?_ Blind.id
    intro s
    exact Blind.at_eq (act' := fun t => (t.takeMark c (s.busEpoch others)).fieldAfterMark)
      (Blind.comp (act' := State.fieldAfterMark) (Blind.of_rebased (fun _ _ _ => rfl) fun _ => rfl)
        (takeMark_blind c _)) fun _ _ => rfl
  | sendSelection => exact Blind.ite (fun _ _ _ => Iff.rfl) select_blind Blind.id
  | fieldFault => exact Blind.ite (fun _ _ _ => Iff.rfl) fieldFault_blind Blind.id
  | transmit => exact transmit_blind
  | readbackMismatch => exact readbackMismatch_blind
  | messageAborted | slotVacant => exact Blind.ite (fun _ _ _ => Iff.rfl) endSlot_blind Blind.id
  | messageReceived read => exact messageReceived_blind read

/-- No command touches the commands that wait. -/
@[simp] theorem after_pending (s : State) (c : Instr) : (s.after c).pending = s.pending := by
  obtain ⟨port, -, -, heq⟩ := after_blind c s s.port s.pending rfl
  have heq : s.after c = (s.after c).rebased port s.pending := heq
  rw [heq]

/-- Settles O2: a blind command does the same whatever waits, with the source port it finds. -/
theorem commandsCompleteWhateverWaits : Obligations.CommandsCompleteWhateverWaits := by
  intro c s
  refine ⟨s.after c, exec_eq_next c s, after_pending s c, fun waiting => ?_⟩
  obtain ⟨port, -, hsame, heq⟩ := after_blind c s s.port waiting rfl
  rw [hsame rfl] at heq
  rw [exec_next_iff]
  exact heq

/-- Settles O17: a blind command does to a station with another report queue what it does to the station itself, but for
the source port, and leaves both ports with the same command held. -/
theorem reportsDecideNothing : Obligations.ReportsDecideNothing := by
  intro c s t t' port hassembly ht ht'
  rw [exec_next_iff] at ht ht'
  obtain ⟨port', hassembly', -, heq⟩ := after_blind c s port s.pending hassembly
  have ht' : t' = t.rebased port' s.pending := ht'.symm.trans (ht ▸ heq)
  have hpending : t.pending = s.pending := ht ▸ after_pending s c
  subst ht'
  exact ⟨ht ▸ hassembly', by rw [← hpending]⟩

end Sys2Proof.Machine
end

section
/-! SUPPORT. What one command can do, said once: `Move s c t` lists every way in which the command `c` takes the station from
`s` to `t`, with the guard of each. An invariant of the machine is a case analysis of `Move`. -/

namespace Sys2Proof.Machine

-- One thread, as for the tests: proofs elaborated side by side would exceed the build's memory limit.
set_option Elab.async false

open Sys2Proof.Safety

/-! ### The commands of the frame source -/

/-- The rows of the commands of the frame source (R139, R140). -/
def Instr.completes (c : Instr) : Prop :=
  ∃ w, c = .unknownCommand w ∨ c = .setColors w ∨ c = .setPointerRow w ∨ c = .movePointer w ∨
    c = .pointerVisibility w ∨ c = .withdraw w ∨ c = .readTarget w ∨ c = .status w ∨ c = .rejoin w

/-- The rows of the item-making commands (R73). -/
def Instr.makesItems (c : Instr) : Prop :=
  ∃ w, c = .setColors w ∨ c = .setPointerRow w ∨ c = .movePointer w ∨ c = .pointerVisibility w

/-- Arguments that are in their domains make 1 to 8 items (R142 to R145). -/
theorem Request.Follows.items_length {kind : Nat} {args : List Word} {items : List Item}
    (h : (Request.items items).Follows kind args) : 1 ≤ items.length ∧ items.length ≤ 8 := by
  obtain ⟨-, hrange, hcount⟩ := h
  have hpos := itemCount_pos hrange
  rw [hcount]
  refine ⟨hpos, ?_⟩
  unfold itemCount
  split
  next hkind =>
    subst hkind
    simp only [argumentOutOfRange, Bool.or_eq_false_iff, decide_eq_false_iff_not] at hrange
    omega
  next => norm_num

/-! ### The moves -/

/-- What a command can do to a station. -/
inductive Move (s : State) : Instr → State → Prop where
  /-- The conditions of the event are not met (log 10). -/
  | idle (c : Instr) : Move s c s
  | reset : Move s .reset { State.reset with choices := s.choices, pending := s.pending }
  | configured {read : Option (List Byte)} {c : Settings} (hstate : s.station.state = .configuring)
      (hread : validate read = .valid c) : Move s (.configurationComplete read) (s.configured c)
  | configFaulted {read : Option (List Byte)} {reason : ConfigFaultReason} (hstate : s.station.state = .configuring) :
      Move s (.configurationComplete read) (s.configFaulted reason)
  | pixelWord (payload : Word) : Move s (.pixelWord payload) (s.endAssembly.handPixel payload)
  | commandWord (payload : Word) (a : Assembly) :
      Move s (.commandWord payload) { s with port := { s.port with assembly := some a } }
  /-- A command is refused, or answers with a record alone. -/
  | answer {c : Instr} (hrow : Instr.completes c) (r : Record) : Move s c (s.afterCommand.report r)
  | accept {c : Instr} (hrow : Instr.makesItems c) (tag : Tag) {items : List Item} (hactive : s.active = true)
      (hsome : 1 ≤ items.length) (hfew : items.length ≤ 8) (hroom : items.length ≤ s.command.freeCapacity) :
      Move s c (s.afterCommand.accept tag items)
  | withdraw (payload : Word) (tag : Tag) : Move s (.withdraw payload) (s.afterCommand.withdraw tag)
  | rejoin (payload : Word) (tag : Tag) (hstate : s.station.state.permitsRejoin = true) :
      Move s (.rejoin payload) (s.afterCommand.rejoin tag)
  | recordSent : Move s .recordSent { s with port := s.port.finishRecord }
  | countLine {c : Settings} (hconfig : s.loader.config = some c) (hrunning : s.timer.running = true)
      (hline : s.timer.line + 1 < c.totalLines) : Move s .lineStart (s.countLine c)
  | endFrame {c : Settings} (hconfig : s.loader.config = some c) (hrunning : s.timer.running = true)
      (hline : s.timer.line + 1 = c.totalLines) : Move s .naturalFrameEnd (s.endFrame c)
  | seekGap (hround : s.bus.round = .seeking) :
      Move s .seekGap { s with bus := { s.bus with round := .idle, recessive := .seekGap } }
  | idleGap : Move s .idleGap { s with bus := s.bus.idleGap }
  | dominantLevel : Move s .dominantLevel { s with bus := s.bus.restartCount }
  | driveStartPulse (hactive : s.active = true) (hround : s.bus.round = .idle) :
      Move s .driveStartPulse { s with bus := { s.bus with drive := .startPulse } }
  | followRound (hround : s.bus.round = .seeking ∨ s.bus.round = .gap ∨ s.bus.round = .idle) :
      Move s .startPulse { s with bus := s.bus.followRound s.active }
  | fieldFault {c : Instr} (hrow : c = .startPulse ∨ c = .fieldFault) (hround : s.bus.round = .fields) :
      Move s c s.fieldFault
  | damageSlot (hround : s.bus.round = .data) :
      Move s .startPulse { s with bus := { s.bus with slotDamaged := true } }
  | originField (others : BitVec 4) (hround : s.bus.round = .fields) (hfield : s.bus.field = .origin) :
      Move s (.originField others)
        { s with
          bus := { s.bus with belief := others &&& s.originDrive, field := .markSlot, partDriven := recessiveField 16 } }
  | markSlot (others : Level) (hround : s.bus.round = .fields) (hfield : s.bus.field = .markSlot) :
      Move s (.markSlot others)
        { s with
          bus := { s.bus with field := if wiredAnd others s.markDrive = .dominant then .epoch else .reservation } }
  | mark (others : BitVec 16) {c : Settings} (hconfig : s.loader.config = some c) (hrunning : s.timer.running = true)
      (hround : s.bus.round = .fields) (hfield : s.bus.field = .epoch) :
      Move s (.mark others) (s.takeMark c (s.busEpoch others)).fieldAfterMark
  | select (hround : s.bus.round = .fields) (hfield : s.bus.field = .reservation) (hdrives : s.drives = true) :
      Move s .sendSelection s.select
  | reserve (others : BitVec 16) (hround : s.bus.round = .fields)
      (hfield : s.bus.field = .reservation ∨ s.bus.field = .selected) :
      Move s (.reservationField others) { s with bus := s.bus.reserve (others &&& s.reservationDrive) }
  | transmit {m : Message} (hslot : s.ownSlot = true) (hdrives : s.drives = true) (hdrive : s.bus.drive = .recessive)
      (hmessage : s.outgoing = some m) : Move s .transmit { s with bus := { s.bus with drive := .message m } }
  | mismatch {m : Message} (hsent : s.bus.drive.transmitting = some m) :
      Move s .readbackMismatch { s with bus := { s.bus with drive := .abortPattern } }
  | endSlot {c : Instr} (hrow : c = .messageAborted ∨ c = .slotVacant) (hround : s.bus.round = .data) :
      Move s c s.endSlot
  | message {r : Rank} (read : Option (List Byte)) (hround : s.bus.round = .data)
      (hslot : s.bus.schedule[s.bus.slot]? = some r) :
      Move s (.messageReceived read) (s.takeMessage r read).endSlot

/-! ### Every command makes a move -/

section
variable {s : State}

/-- A branch of an event that is not taken leaves the station as it is. -/
theorem Move.ite {c : Instr} {test : Prop} [Decidable test] {t : State} (h : test → Move s c t) :
    Move s c (if test then t else s) := by
  split
  · exact h ‹_›
  · exact .idle c

theorem Move.takeCommand {c : Instr} {payload : Word} {kind : Option CommandKind} {act : State → Command → State}
    (hexec : exec c s = .next (s.takeCommand payload kind act))
    (h : ∀ command, Move s c (act s.afterCommand command)) : Move s c (s.after c) := by
  rw [exec_next_iff.mp hexec]
  rcases s.takeCommand_cases payload kind act with ⟨command, -, -, heq⟩ | heq
  · exact heq ▸ h command
  · exact heq.symm ▸ .idle c

theorem Move.takeRequest {c : Instr} (hitems : Instr.makesItems c) (hrow : Instr.completes c) (tag : Tag) {kind : Nat}
    {args : List Word} {request : Request} (h : request.Follows kind args) :
    Move s c (s.afterCommand.takeRequest tag request) := by
  rcases s.afterCommand.takeRequest_cases tag request with ⟨reason, heq⟩ | ⟨items, rfl, hactive, hroom, heq⟩
  · exact heq ▸ .answer hrow _
  · obtain ⟨hsome, hfew⟩ := h.items_length
    exact heq ▸ .accept hitems tag hactive hsome hfew hroom

theorem Move.ofConfig {c : Instr} {act : Settings → State} (h : ∀ config, s.loader.config = some config →
    Move s c (act config)) :
    Move s c (match s.loader.config with
      | some config => act config
      | none => s) := by
  cases hconfig : s.loader.config with
  | none => exact .idle c
  | some config => exact h config hconfig

end

theorem BusController.atField_iff (b : BusController) (field : FieldPosition) :
    b.atField field = true ↔ b.round = .fields ∧ b.field = field := by
  simp [BusController.atField]

/-- Every command makes one of the moves. -/
theorem move_after (s : State) (c : Instr) : Move s c (s.after c) := by
  cases c with
  | reset => exact .reset
  | configurationComplete read =>
    refine Move.ite fun hstate => ?_
    cases hread : validate read with
    | valid c => exact .configured hstate hread
    | fault reason => exact .configFaulted hstate
  | pixelWord payload => exact .pixelWord payload
  | commandWord payload =>
    simp only [State.after, exec, execCommandWord]
    cases assemble s.port.assembly payload with
    | incomplete a => exact .commandWord payload a
    | complete c => exact .idle _
  | unknownCommand w => exact .takeCommand rfl fun _ => .answer ⟨w, by simp⟩ _
  | setColors w =>
    exact .takeCommand rfl fun c => .takeRequest ⟨w, by simp⟩ ⟨w, by simp⟩ c.tag (setColorsRequest_follows c.args)
  | setPointerRow w =>
    exact .takeCommand rfl fun c =>
      .takeRequest ⟨w, by simp⟩ ⟨w, by simp⟩ c.tag (setPointerRowRequest_follows c.args)
  | movePointer w =>
    exact .takeCommand rfl fun c => .takeRequest ⟨w, by simp⟩ ⟨w, by simp⟩ c.tag (movePointerRequest_follows c.args)
  | pointerVisibility w =>
    exact .takeCommand rfl fun c =>
      .takeRequest ⟨w, by simp⟩ ⟨w, by simp⟩ c.tag (pointerVisibilityRequest_follows c.args)
  | withdraw w =>
    refine .takeCommand rfl fun c => ?_
    split
    · exact .withdraw w c.tag
    · exact .answer ⟨w, by simp⟩ _
  | readTarget w =>
    refine .takeCommand rfl fun c => ?_
    obtain ⟨r, heq⟩ := s.afterCommand.readTarget_eq_report c.tag c.args
    exact heq ▸ .answer ⟨w, by simp⟩ r
  | status w =>
    refine .takeCommand rfl fun c => ?_
    split <;> exact .answer ⟨w, by simp⟩ _
  | rejoin w =>
    refine .takeCommand rfl fun c => ?_
    split
    · exact .answer ⟨w, by simp⟩ _
    · split
      · exact .rejoin w c.tag ‹_›
      · exact .answer ⟨w, by simp⟩ _
  | recordSent => exact after_recordSent s ▸ .recordSent
  | lineStart =>
    refine Move.ofConfig fun c hconfig => Move.ite fun h => ?_
    simp only [Bool.and_eq_true, decide_eq_true_eq] at h
    exact .countLine hconfig h.1 h.2
  | naturalFrameEnd =>
    refine Move.ofConfig fun c hconfig => Move.ite fun h => ?_
    simp only [Bool.and_eq_true, decide_eq_true_eq] at h
    exact .endFrame hconfig h.1 h.2
  | seekGap => exact Move.ite .seekGap
  | idleGap => exact .idleGap
  | driveStartPulse =>
    refine Move.ite fun h => ?_
    simp only [Bool.and_eq_true, decide_eq_true_eq] at h
    exact .driveStartPulse h.1.1 h.1.2
  | startPulse =>
    simp only [State.after, exec, execStartPulse]
    split
    next => exact .idle _
    next hround => exact .followRound (.inl hround)
    next hround => exact .followRound (.inr (.inl hround))
    next hround => exact .followRound (.inr (.inr hround))
    next hround => exact .fieldFault (.inl rfl) hround
    next hround => exact .damageSlot hround
  | originField others =>
    refine Move.ite fun h => ?_
    obtain ⟨hround, hfield⟩ := (s.bus.atField_iff _).mp h
    exact .originField others hround hfield
  | markSlot others =>
    refine Move.ite fun h => ?_
    obtain ⟨hround, hfield⟩ := (s.bus.atField_iff _).mp h
    exact .markSlot others hround hfield
  | mark others =>
    refine Move.ofConfig fun c hconfig => Move.ite fun h => ?_
    simp only [Bool.and_eq_true, decide_eq_true_eq] at h
    exact .mark others hconfig h.1.1 h.1.2 h.2
  | sendSelection =>
    refine Move.ite fun h => ?_
    simp only [Bool.and_eq_true, BusController.atField_iff] at h
    exact .select h.1.1 h.1.2 h.2
  | reservationField others =>
    refine Move.ite fun h => ?_
    simp only [Bool.or_eq_true, BusController.atField_iff, ← and_or_left] at h
    exact .reserve others h.1 h.2
  | fieldFault => exact Move.ite (.fieldFault (.inr rfl))
  | transmit =>
    refine Move.ite fun h => ?_
    simp only [Bool.and_eq_true, decide_eq_true_eq] at h
    cases hmessage : s.outgoing with
    | none => exact .idle _
    | some m => exact .transmit h.1.1 h.1.2 h.2 hmessage
  | readbackMismatch =>
    simp only [State.after, exec, execReadbackMismatch]
    cases hsent : s.bus.drive.transmitting with
    | none => exact .idle _
    | some m => exact .mismatch hsent
  | messageAborted => exact Move.ite (.endSlot (.inl rfl))
  | slotVacant => exact Move.ite (.endSlot (.inr rfl))
  | messageReceived read =>
    simp only [State.after, exec, execMessageReceived]
    cases hslot : s.slotRank with
    | none => exact .idle _
    | some r =>
      unfold State.slotRank at hslot
      split at hslot
      · exact .message read ‹_› hslot
      · cases hslot
  | dominantLevel => exact .dominantLevel

/-- What every move keeps, and what the waiting queue plays no part in, every step keeps. -/
theorem step_keeps {Inv : State → Prop} (hqueue : ∀ s queue, Inv s → Inv (s.withQueue queue))
    (hmove : ∀ {c s t}, Move s c t → Inv s → Inv t) {s t : State} (h : step s = .next t) (hs : Inv s) : Inv t :=
  step_invariant hqueue (fun c s => hmove (move_after s c)) h hs

end Sys2Proof.Machine
end

section
/-! The wall state store (spec/01_the_wall_state_and_its_digest.md, spec/02_staging_and_the_epoch_apply.md; R108): the running
digest follows the writes (R7, R8), the generations keep one entry per target (R17, R19), and the state blocks carry the whole
wall state. -/

namespace Sys2Proof.Machine

-- One thread, as for the tests: proofs elaborated side by side would exceed the build's memory limit.
set_option Elab.async false

open Sys2Proof.Safety

/-! ### Targets (R1) -/

theorem Target.number_injective {t t' : Target} (h : t.number = t'.number) : t = t' := by
  have := congrArg Target.ofNumber? h
  simpa using this

theorem mem_allTargets (t : Target) : t ∈ allTargets := by
  cases t <;> simp [allTargets]

theorem allTargets_nodup : allTargets.Nodup := by
  have hslots : ((List.finRange 260).map Target.slot).Nodup :=
    (List.nodup_finRange 260).map fun _ _ h => Target.slot.inj h
  have hrows : ((List.finRange 32).map Target.row).Nodup := (List.nodup_finRange 32).map fun _ _ h => Target.row.inj h
  have hapart : ∀ (s : Fin 260) (t : Target), (∃ r, Target.row r = t) ∨ t = .position ∨ t = .visibility →
      ¬Target.slot s = t := by
    rintro s t (⟨r, rfl⟩ | rfl | rfl) <;> simp
  simpa [allTargets, List.nodup_append, hslots, hrows] using hapart

/-! ### The digest under a write (R7, R8) -/

theorem foldl_add_eq_sum (f : Target → Digest) (l : List Target) :
    l.foldl (fun d t => d + f t) 0 = (l.map f).sum := by
  rw [List.sum_eq_foldl, List.foldl_map]

/-- Of a sum over distinct targets, a change at one of them changes the one term. -/
theorem sum_map_update {f f' : Target → Digest} {l : List Target} {t : Target} (hnodup : l.Nodup) (ht : t ∈ l)
    (hother : ∀ t', t' ≠ t → f' t' = f t') : (l.map f').sum = (l.map f).sum - f t + f' t := by
  have herase : (l.erase t).map f' = (l.erase t).map f :=
    List.map_congr_left fun t' h => hother t' ((hnodup.mem_erase_iff.mp h).1)
  rw [← List.sum_map_erase f ht, ← List.sum_map_erase f' ht, herase]
  ring

/-- R8: a write corrects the sum by the hash of the old value and that of the new. -/
theorem WallState.digest_write (w : WallState) (i : Item) :
    (w.write i).digest = w.digest - (w.item i.target).hash + i.hash := by
  simp only [WallState.digest, foldl_add_eq_sum]
  rw [sum_map_update allTargets_nodup (mem_allTargets i.target) fun t ht => by rw [w.item_write_other i ht]]
  simp

/-- The running digest of a store is that of its wall state. -/
def WallStore.DigestTrue (st : WallStore) : Prop := st.digest = st.wall.digest

theorem WallStore.reset_digestTrue : WallStore.reset.DigestTrue := by
  simp only [WallStore.DigestTrue, WallStore.reset, defaultDigest]

theorem WallStore.writeAll_digestTrue {st : WallStore} (items : List Item) (h : st.DigestTrue) :
    (st.writeAll items).DigestTrue := by
  induction items generalizing st with
  | nil => exact h
  | cons i items ih =>
    refine ih (st := st.write i) ?_
    rw [WallStore.DigestTrue] at h
    simp only [WallStore.DigestTrue, WallStore.write, WallState.digest_write, h]

/-! ### What a list of writes leaves (R10) -/

theorem entryFor_cons (i : Item) (items : List Item) (t : Target) :
    entryFor (i :: items) t = if i.target = t then some i else entryFor items t := by
  by_cases h : i.target = t <;> simp [entryFor, h]

theorem entryFor_eq_none {items : List Item} {t : Target} (h : ∀ i ∈ items, i.target ≠ t) : entryFor items t = none := by
  simpa [entryFor] using h

/-- With one item per target at most, a target takes the value of its item. -/
theorem writesEntries_foldl {items : List Item} (h : items.Pairwise fun i j => i.target ≠ j.target) (w : WallState) :
    WritesEntries w (items.foldl WallState.write w) items := by
  induction items generalizing w with
  | nil => exact fun t => rfl
  | cons i items ih =>
    obtain ⟨hi, hitems⟩ := List.pairwise_cons.mp h
    intro t
    rw [List.foldl_cons, ih hitems (w.write i) t, entryFor_cons]
    by_cases ht : i.target = t
    · subst ht
      rw [entryFor_eq_none fun j hj => (hi j hj).symm]
      simp
    · rw [if_neg ht, w.item_write_other i (Ne.symm ht)]

theorem CanonicalGeneration.targets_ne {items : List Item} (h : CanonicalGeneration items) :
    items.Pairwise fun i j => i.target ≠ j.target :=
  h.imp fun hlt heq => by simp [heq] at hlt

/-- Items that carry a sender's values leave the sender's value where they write, or where it stood before. -/
theorem item_foldl_of_sender {sender : WallState} {items : List Item} (h : ∀ i ∈ items, i = sender.item i.target)
    {w : WallState} {t : Target} (ht : w.item t = sender.item t ∨ ∃ i ∈ items, i.target = t) :
    (items.foldl WallState.write w).item t = sender.item t := by
  induction items generalizing w with
  | nil => simpa using ht
  | cons i items ih =>
    obtain ⟨hi, hitems⟩ := List.forall_mem_cons.mp h
    refine ih hitems ?_
    by_cases hit : i.target = t
    · subst hit
      exact .inl (by rw [WallState.item_write_same]; exact hi)
    · rw [w.item_write_other i (Ne.symm hit)]
      rcases ht with ht | ⟨j, hj, rfl⟩
      · exact .inl ht
      · rcases List.mem_cons.mp hj with rfl | hj
        · exact absurd rfl hit
        · exact .inr ⟨j, hj, rfl⟩

/-! ### Generations (R17, R19) -/

theorem entryFor_insertItem (i : Item) (items : List Item) (t : Target) :
    entryFor (insertItem i items) t = if i.target = t then some i else entryFor items t := by
  induction items with
  | nil => simp [insertItem, entryFor_cons]
  | cons j rest ih =>
    rw [insertItem]
    split
    next => rw [entryFor_cons]
    next hlt =>
    split
    next heq =>
      have htarget : i.target = j.target := Target.number_injective heq
      by_cases ht : i.target = t
      · simp [entryFor_cons, ht]
      · simp [entryFor_cons, ht, htarget ▸ ht]
    next hne =>
      have htarget : i.target ≠ j.target := fun h => hne (by rw [h])
      rw [entryFor_cons, ih, entryFor_cons]
      by_cases ht : i.target = t
      · subst ht
        simp [Ne.symm htarget]
      · simp [ht]

/-- The last item for a target stands for it, and where there is none the entry stays. -/
theorem entryFor_foldl_insertItem (items g : List Item) (t : Target) :
    entryFor (items.foldl (fun g i => insertItem i g) g) t = (entryFor items.reverse t).or (entryFor g t) := by
  induction items generalizing g with
  | nil => simp [entryFor]
  | cons i items ih =>
    have hlast : entryFor (items.reverse ++ [i]) t = (entryFor items.reverse t).or (entryFor [i] t) := by
      simp [entryFor]
    rw [List.foldl_cons, ih, entryFor_insertItem, List.reverse_cons, hlast, entryFor_cons, Option.or_assoc]
    by_cases ht : i.target = t <;> simp [ht, entryFor]

/-- Both generations of a store hold one entry per target at most. -/
def WallStore.Canonical (st : WallStore) : Prop :=
  CanonicalGeneration st.opened ∧ ∀ g ∈ st.closed, CanonicalGeneration g.items

/-- The closed generation of a store, if one is PENDING, is applied (R25). -/
def WallStore.applyPending (st : WallStore) : WallStore :=
  match st.closed with
  | none => st
  | some g => st.applyGeneration g

@[simp] theorem State.applyClosed_store (s : State) (torn : Bool) :
    (s.applyClosed torn).store = s.store.applyPending := by
  unfold State.applyClosed WallStore.applyPending
  split <;> simp_all

theorem WallStore.applyPending_frame (st : WallStore) :
    st.applyPending.opened = st.opened ∧ st.applyPending.closed = none ∧ st.applyPending.staging = st.staging := by
  unfold WallStore.applyPending WallStore.applyGeneration
  split
  next h => exact ⟨rfl, h, rfl⟩
  next g _ =>
    obtain ⟨-, hopened, -, hstaging⟩ := st.writeAll_frame g.items
    exact ⟨hopened, rfl, hstaging⟩

/-- What a mark does to the store: the opening of the staging, or a torn apply, the close, and an apply in the blank
(R18, R22, R23, R27). -/
def WallStore.mark (st : WallStore) (c : Settings) (line : Nat) (adopted : Epoch) (offset : Int) : WallStore :=
  if st.staging then
    if c.activeLines ≤ line then (st.applyPending.close adopted offset).applyPending
    else st.applyPending.close adopted offset
  else st.openStaging

@[simp] theorem State.storeMark_store (s : State) (c : Settings) (line : Nat) (adopted : Epoch) (offset : Int) :
    (s.storeMark c line adopted offset).store = s.store.mark c line adopted offset := by
  unfold State.storeMark State.closeGeneration WallStore.mark
  dsimp only
  repeat' split
  all_goals simp

/-- Wherever a self-promotion stands in a mark, the store takes the mark as it was before it. -/
@[simp] theorem State.takeMark_store (s : State) (c : Settings) (adopted : Epoch) :
    (s.takeMark c adopted).store =
      s.store.mark c s.timer.line adopted (offsetAt c s.timer.phase s.timer.line) := by
  rcases s.markActions_cases c adopted with h | ⟨-, h | h⟩ <;> simp [State.takeMark, h]

/-! ### What a command can do to the store -/

/-- A property of stores that every operation of the store keeps. -/
structure WallStore.Kept (P : WallStore → Prop) : Prop where
  reset : P WallStore.reset
  writeAll : ∀ st items, P st → P (st.writeAll items)
  stage : ∀ st items, P st → P (st.stage items)
  openStaging : ∀ st, P st → P st.openStaging
  close : ∀ st adopted offset, P st → P (st.close adopted offset)
  applyPending : ∀ st, P st → P st.applyPending

theorem State.takeBody_store (s : State) (m : Message) :
    (s.takeBody m).store = s.store ∨ (∃ items, m.body = .update items ∧ (s.takeBody m).store = s.store.stage items) ∨
      ∃ b epoch values, m.body = .block b epoch values ∧ (s.takeBody m).store = s.store.writeAll values := by
  unfold State.takeBody
  split
  next items h => exact .inr (.inl ⟨items, h, rfl⟩)
  next => exact .inl rfl
  next => exact .inl (by simp)
  next => exact .inl rfl
  next b epoch values h =>
    unfold State.takeBlock
    dsimp only
    split
    · exact .inr (.inr ⟨b, epoch, values, h, by simp⟩)
    · exact .inl rfl

namespace WallStore.Kept

variable {P : WallStore → Prop} (h : WallStore.Kept P) {s : State}
include h

theorem takeBody (m : Message) (hs : P s.store) : P (s.takeBody m).store := by
  rcases s.takeBody_store m with heq | ⟨items, -, heq⟩ | ⟨b, epoch, values, -, heq⟩
  · exact heq ▸ hs
  · exact heq ▸ h.stage _ _ hs
  · exact heq ▸ h.writeAll _ _ hs

theorem takeMessage (scheduled : Rank) (read : Option (List Byte)) (hs : P s.store) :
    P (s.takeMessage scheduled read).store := by
  rcases s.takeMessage_cases scheduled read with ⟨-, heq⟩ | ⟨m, -, heq⟩ | ⟨-, -, m, -, heq⟩ | ⟨-, -, -, heq⟩ <;> rw [heq]
  · exact hs
  · simp only [State.takeOwn, State.outcomeClean_frame]
    exact h.takeBody m (by simpa using hs)
  · unfold State.takeValid
    split <;> exact h.takeBody m (by simpa using hs)
  · simpa using hs

theorem mark (c : Settings) (line : Nat) (adopted : Epoch) (offset : Int) {st : WallStore} (hst : P st) :
    P (st.mark c line adopted offset) := by
  have hclosed := h.close _ adopted offset (h.applyPending _ hst)
  unfold WallStore.mark
  split
  · split
    · exact h.applyPending _ hclosed
    · exact hclosed
  · exact h.openStaging _ hst

/-- Every command does to the store what its operations do. -/
theorem move {c : Instr} {t : State} (hmove : Move s c t) (hs : P s.store) : P t.store := by
  cases hmove with
  | reset => exact h.reset
  | rejoin payload tag _ => exact h.reset
  | countLine hconfig hrunning hline =>
    unfold State.countLine
    dsimp only
    split <;> simp only [State.eitherOrder_frame, State.applyClosed_store, State.beginLine_store]
    · exact h.applyPending _ hs
    · exact hs
  | endFrame hconfig hrunning hline =>
    simp only [State.endFrame, State.eitherOrder_frame, State.listen]
    repeat' split
    · exact h.openStaging _ hs
    · exact hs
    · exact hs
  | mark others hconfig hrunning hround hfield =>
    simp only [State.fieldAfterMark_store, State.takeMark_store]
    exact h.mark _ _ _ _ hs
  | message read hround hslot =>
    simp only [State.endSlot_frame]
    exact h.takeMessage _ _ hs
  | pixelWord payload => simpa using hs
  | fieldFault hrow hround => simpa using hs
  | select hround hfield hdrives => simpa using hs
  | endSlot hrow hround => simpa using hs
  | idle | configured | configFaulted | commandWord | answer | accept | withdraw | recordSent | seekGap | idleGap
  | dominantLevel | driveStartPulse | followRound | damageSlot | originField | markSlot | reserve | transmit
  | mismatch => exact hs

end WallStore.Kept

theorem WallStore.digestTrue_kept : WallStore.Kept WallStore.DigestTrue where
  reset := WallStore.reset_digestTrue
  writeAll := fun _ items h => WallStore.writeAll_digestTrue items h
  stage := fun st items h => by unfold WallStore.stage; split <;> exact h
  openStaging := fun _ h => h
  close := fun _ _ _ h => h
  applyPending := fun st h => by
    unfold WallStore.applyPending
    split
    · exact h
    · exact WallStore.writeAll_digestTrue (st := st) _ h

theorem WallStore.canonical_kept : WallStore.Kept WallStore.Canonical where
  reset := ⟨List.Pairwise.nil, fun g h => by cases h⟩
  writeAll := fun st items h => by
    obtain ⟨-, hopened, hclosed, -⟩ := st.writeAll_frame items
    rwa [WallStore.Canonical, hopened, hclosed]
  stage := fun st items h => by
    unfold WallStore.stage
    split
    · exact ⟨foldl_insertItem_canonical items h.1, h.2⟩
    · exact h
  openStaging := fun st h => ⟨List.Pairwise.nil, h.2⟩
  close := fun st adopted offset h => ⟨List.Pairwise.nil, fun g hg => by cases hg; exact h.1⟩
  applyPending := fun st h => by
    obtain ⟨hopened, hclosed, -⟩ := st.applyPending_frame
    rw [WallStore.Canonical, hopened, hclosed]
    exact ⟨h.1, fun g hg => by cases hg⟩

/-- Settles O55: both relations are kept by every operation of the store, and a command does no more to it than these. -/
theorem stepsKeepTheDigestAndTheGenerations : Obligations.StepsKeepTheDigestAndTheGenerations := fun _ _ hstep =>
  ⟨step_keeps (Inv := DigestFollowsWall) (fun _ _ h => h) (fun hmove h => WallStore.digestTrue_kept.move hmove h) hstep,
    step_keeps (Inv := GenerationsCanonical) (fun _ _ h => h) (fun hmove h => WallStore.canonical_kept.move hmove h)
      hstep⟩

end Sys2Proof.Machine
end

section
/-! The statements about the store alone: staging keeps the last item for each target (R17, R19, R21), and the 66 state blocks
carry the whole wall state (R14, R108). -/

namespace Sys2Proof.Machine

-- One thread, as for the tests: proofs elaborated side by side would exceed the build's memory limit.
set_option Elab.async false

open Sys2Proof.Safety

/-! ### Staging (R19, R21) -/

theorem State.takeBody_update {m : Message} {items : List Item} (s : State) (h : m.body = .update items) :
    s.takeBody m = { s with store := s.store.stage items } := by
  simp [State.takeBody, h]

/-- Settles O35: taking the items one by one keeps the generation canonical and leaves the last item for each target. -/
theorem stagingKeepsTheLastItem : Obligations.StagingKeepsTheLastItem := by
  intro s m items hbody
  rw [s.takeBody_update hbody]
  refine ⟨fun hclosed => by simp [WallStore.stage, hclosed], fun hopen hcanonical => ?_⟩
  exact ⟨_, foldl_insertItem_canonical items hcanonical, entryFor_foldl_insertItem items s.store.opened,
    by simp [WallStore.stage, hopen]⟩

/-! ### The state blocks (R108) -/

/-- The block a target lies in (R108). -/
def Target.block : Target → Fin 66
  | .slot s => ⟨s.val / 8, by omega⟩
  | .row r => ⟨33 + r.val, by omega⟩
  | .position => 65
  | .visibility => 65

theorem mem_blockTargets_iff (b : Fin 66) (t : Target) : t ∈ blockTargets b ↔ b = t.block := by
  have slotIn : ∀ (s : Fin 260) (first n : Nat) (hn : ∀ k : Fin n, first + k.val < 260),
      Target.slot s ∈ (List.finRange n).map (fun k => Target.slot ⟨first + k.val, hn k⟩) ↔
        first ≤ s.val ∧ s.val < first + n := by
    intro s first n hn
    simp only [List.mem_map, List.mem_finRange, true_and, Target.slot.injEq, Fin.ext_iff]
    exact ⟨fun ⟨k, hk⟩ => by omega, fun h => ⟨⟨s.val - first, by omega⟩, by simp only; omega⟩⟩
  have hlast : (Target.position.block : Fin 66).val = 65 ∧ (Target.visibility.block : Fin 66).val = 65 := ⟨rfl, rfl⟩
  have hslot : ∀ s, (Target.slot s).block.val = s.val / 8 := fun _ => rfl
  have hrow : ∀ r, (Target.row r).block.val = 33 + r.val := fun _ => rfl
  unfold blockTargets
  rw [Fin.ext_iff]
  repeat' split
  all_goals cases t with
    | slot s => simp only [slotIn, hslot, List.mem_cons, List.not_mem_nil, reduceCtorEq, or_self, false_iff]; omega
    | row r =>
      simp only [List.mem_map, List.mem_cons, List.not_mem_nil, Target.row.injEq, Fin.ext_iff, hrow,
        reduceCtorEq, and_false, exists_false, or_false, or_self, false_iff]
      omega
    | position | visibility =>
      simp only [List.mem_map, List.mem_cons, List.not_mem_nil, hlast, reduceCtorEq, and_false,
        exists_false, or_false, or_true, false_iff, true_iff]
      omega

theorem blockTargets_nodup (b : Fin 66) : (blockTargets b).Nodup := by
  unfold blockTargets
  repeat' split
  · exact (List.nodup_finRange 8).map fun k k' h => by simpa [Fin.ext_iff] using h
  · exact (List.nodup_finRange 4).map fun k k' h => by simpa [Fin.ext_iff] using h
  · exact List.nodup_singleton _
  · simp

/-- A block's items carry the sender's values. -/
theorem WallState.block_of_sender (w : WallState) (b : Fin 66) : ∀ i ∈ w.block b, i = w.item i.target := by
  intro i hi
  obtain ⟨t, -, rfl⟩ := List.mem_map.mp hi
  rw [WallState.item_target]

/-- Settles O48: the blocks partition the targets, and each target takes the sender's value from its own block. -/
theorem theBlocksCarryTheWholeWall : Obligations.TheBlocksCarryTheWholeWall := by
  refine ⟨fun t => ⟨t.block, (mem_blockTargets_iff _ t).mpr rfl, fun b h => (mem_blockTargets_iff b t).mp h⟩,
    blockTargets_nodup, fun sender receiver => WallState.ext_items fun t => ?_⟩
  rw [← List.foldl_flatMap]
  refine item_foldl_of_sender (fun i hi => ?_) (.inr ⟨sender.item t, ?_, WallState.item_target sender t⟩)
  · obtain ⟨b, -, hi⟩ := List.mem_flatMap.mp hi
    exact sender.block_of_sender b i hi
  · exact List.mem_flatMap.mpr ⟨t.block, List.mem_finRange _,
      List.mem_map_of_mem ((mem_blockTargets_iff _ t).mpr rfl)⟩

end Sys2Proof.Machine
end

section
/-! The two queues of a station: the proposal queue with its posting accounts (spec/05_sending_proposals_and_send_selection.md;
R72, R73, R78 to R81, R85) and the report queue (spec/09_the_source_port_commands_and_reports.md; R150 to R152). -/

namespace Sys2Proof.Machine

-- One thread, as for the tests: proofs elaborated side by side would exceed the build's memory limit.
set_option Elab.async false

open Sys2Proof.Safety

/-! ### The shares of the accounts (R72, log 18) -/

/-- Items that leave in queue order, shared among the accounts in intake order: each account meets what is left of `n` after
the items of those before it. -/
def shareOut (take : Nat → Account → Account) : Nat → List Account → List Account
  | _, [] => []
  | n, a :: rest => take n a :: shareOut take (n - a.remaining) rest

theorem postOldest_eq_shareOut (e : Option Epoch) (n : Nat) (accounts : List Account) :
    postOldest e n accounts = shareOut (fun n a => a.post (min n a.remaining) e) n accounts := by
  induction accounts generalizing n with
  | nil => rfl
  | cons a rest ih => rw [postOldest, shareOut, ih]

theorem removeOldest_eq_shareOut (n : Nat) (accounts : List Account) :
    removeOldest n accounts = shareOut (fun n a => a.remove (min n a.remaining)) n accounts := by
  induction accounts generalizing n with
  | nil => rfl
  | cons a rest ih => rw [removeOldest, shareOut, ih]

theorem removeBehind_eq_shareOut (n : Nat) (accounts : List Account) :
    removeBehind n accounts = shareOut (fun n a => a.remove (a.remaining - n)) n accounts := by
  induction accounts generalizing n with
  | nil => rfl
  | cons a rest ih => rw [removeBehind, shareOut, ih]

section
variable (take : Nat → Account → Account)

theorem shareOut_length (n : Nat) (accounts : List Account) : (shareOut take n accounts).length = accounts.length := by
  induction accounts generalizing n with
  | nil => rfl
  | cons a rest ih => simp [shareOut, ih]

theorem shareOut_getElem? {n i : Nat} {accounts : List Account} {a : Account} (h : accounts[i]? = some a) :
    (shareOut take n accounts)[i]? = some (take (n - itemsAhead accounts i) a) := by
  induction accounts generalizing n i with
  | nil => simp at h
  | cons b rest ih =>
    cases i with
    | zero =>
      cases h
      simp [shareOut, itemsAhead]
    | succ i =>
      rw [shareOut, List.getElem?_cons_succ, ih (by simpa using h)]
      simp [itemsAhead, Nat.sub_sub]

end

/-- Settles O11: each of the three is `shareOut`, whose entries are read off position by position. -/
theorem accountsShareTheItems : Obligations.AccountsShareTheItems := by
  intro accounts n epoch
  simp only [postOldest_eq_shareOut, removeOldest_eq_shareOut, removeBehind_eq_shareOut, shareOut_length, true_and]
  intro i a ha
  simp only [shareOut_getElem? _ ha, Option.some.injEq]
  refine ⟨?_, ?_, ?_⟩
  · rw [Account.post, Nat.min_comm]
  · rw [Account.remove, Nat.min_comm]
  · rw [Account.remove]
    congr 2
    omega

/-! ### The accounts and the queue (R72, R85) -/

/-- Every entry of `shareOut` is an account that met some number. -/
theorem exists_of_mem_shareOut {take : Nat → Account → Account} {n : Nat} {accounts : List Account} {a : Account}
    (h : a ∈ shareOut take n accounts) : ∃ b ∈ accounts, ∃ n, a = take n b := by
  induction accounts generalizing n with
  | nil => simp [shareOut] at h
  | cons b rest ih =>
    rcases List.mem_cons.mp h with rfl | h
    · exact ⟨b, List.mem_cons_self .., n, rfl⟩
    · obtain ⟨b', hb', hn⟩ := ih h
      exact ⟨b', List.mem_cons_of_mem _ hb', hn⟩

/-- The items left in all accounts together. -/
def itemsLeft (accounts : List Account) : Nat := (accounts.map Account.remaining).sum

@[simp] theorem itemsLeft_cons (a : Account) (rest : List Account) :
    itemsLeft (a :: rest) = a.remaining + itemsLeft rest := by
  simp [itemsLeft]

/-- Where each account loses its share of the oldest `n`, all together lose `n`. -/
theorem itemsLeft_shareOut_oldest {take : Nat → Account → Account}
    (htake : ∀ n a, (take n a).remaining = a.remaining - n) (n : Nat) (accounts : List Account) :
    itemsLeft (shareOut take n accounts) = itemsLeft accounts - n := by
  induction accounts generalizing n with
  | nil => simp [shareOut, itemsLeft]
  | cons a rest ih =>
    rw [shareOut, itemsLeft_cons, itemsLeft_cons, ih, htake]
    omega

/-- Where each account keeps its share of the oldest `n`, all together keep `n`. -/
theorem itemsLeft_shareOut_behind {take : Nat → Account → Account}
    (htake : ∀ n a, (take n a).remaining = min n a.remaining) (n : Nat) (accounts : List Account) :
    itemsLeft (shareOut take n accounts) = min n (itemsLeft accounts) := by
  induction accounts generalizing n with
  | nil => simp [shareOut, itemsLeft]
  | cons a rest ih =>
    rw [shareOut, itemsLeft_cons, itemsLeft_cons, ih, htake]
    omega

/-- The accounts that are settled have no items left to count. -/
@[simp] theorem itemsLeft_openAccounts (accounts : List Account) : itemsLeft (openAccounts accounts) = itemsLeft accounts := by
  induction accounts with
  | nil => rfl
  | cons a rest ih =>
    by_cases ha : a.remaining = 0
    · have hsettled : openAccounts (a :: rest) = openAccounts rest := by simp [openAccounts, ha]
      rw [hsettled, ih, itemsLeft_cons, ha, Nat.zero_add]
    · have hopen : openAccounts (a :: rest) = a :: openAccounts rest := by simp [openAccounts, ha]
      rw [hopen, itemsLeft_cons, itemsLeft_cons, ih]

theorem Account.post_remaining (a : Account) (n : Nat) (e : Option Epoch) :
    (a.post n e).remaining = a.remaining - n := by
  simp only [Account.remaining, Account.post]
  omega

theorem Account.remove_remaining (a : Account) (n : Nat) : (a.remove n).remaining = a.remaining - n := by
  simp only [Account.remaining, Account.remove]
  omega

theorem Account.post_open {a : Account} {n : Nat} {e : Option Epoch} (h : AccountOpen a)
    (hleft : (a.post n e).remaining ≠ 0) : AccountOpen (a.post n e) := by
  obtain ⟨hmade, hmade', -, hposting⟩ := h
  refine ⟨hmade, hmade', ?_, fun hposted => ?_⟩
  · simp only [Account.remaining, Account.post] at hleft ⊢
    omega
  · simp only [Account.post, Nat.add_eq_zero_iff] at hposted ⊢
    rw [if_pos hposted.2, hposting hposted.1]

theorem Account.remove_open {a : Account} {n : Nat} (h : AccountOpen a) (hleft : (a.remove n).remaining ≠ 0) :
    AccountOpen (a.remove n) := by
  obtain ⟨hmade, hmade', -, hposting⟩ := h
  refine ⟨hmade, hmade', ?_, hposting⟩
  simp only [Account.remaining, Account.remove] at hleft ⊢
  omega

theorem postOldest_itemsLeft (e : Option Epoch) (n : Nat) (accounts : List Account) :
    itemsLeft (postOldest e n accounts) = itemsLeft accounts - n := by
  rw [postOldest_eq_shareOut, itemsLeft_shareOut_oldest fun n a => by rw [Account.post_remaining]; omega]

theorem removeOldest_itemsLeft (n : Nat) (accounts : List Account) :
    itemsLeft (removeOldest n accounts) = itemsLeft accounts - n := by
  rw [removeOldest_eq_shareOut, itemsLeft_shareOut_oldest fun n a => by rw [Account.remove_remaining]; omega]

theorem removeBehind_itemsLeft (n : Nat) (accounts : List Account) :
    itemsLeft (removeBehind n accounts) = min n (itemsLeft accounts) := by
  rw [removeBehind_eq_shareOut, itemsLeft_shareOut_behind fun n a => by rw [Account.remove_remaining]; omega]

/-- The accounts that stay open after a posting or a removal are accounts with items left. -/
theorem openAccounts_open {take : Nat → Account → Account} {accounts : List Account}
    (htake : ∀ n a, AccountOpen a → (take n a).remaining ≠ 0 → AccountOpen (take n a))
    (h : ∀ a ∈ accounts, AccountOpen a) (n : Nat) : ∀ a ∈ openAccounts (shareOut take n accounts), AccountOpen a := by
  intro a ha
  obtain ⟨hmem, hleft⟩ := List.mem_filter.mp ha
  obtain ⟨b, hb, m, rfl⟩ := exists_of_mem_shareOut hmem
  exact htake m b (h b hb) (by simpa using hleft)

/-- The part of `QueueAccounted` that speaks of the command unit alone. -/
def CommandUnit.Accounted (u : CommandUnit) : Prop :=
  u.queue.length ≤ Config.queueCapacity ∧ u.inFlight ≤ Config.batchLimit ∧ u.inFlight ≤ u.queue.length ∧
    itemsLeft u.accounts = u.queue.length ∧ ∀ a ∈ u.accounts, AccountOpen a

theorem CommandUnit.reset_accounted : CommandUnit.reset.Accounted :=
  ⟨Nat.zero_le _, Nat.zero_le _, Nat.le_refl _, rfl, fun a h => by cases h⟩

theorem CommandUnit.dropAll_accounted (u : CommandUnit) : u.dropAll.1.Accounted := CommandUnit.reset_accounted

section
variable {u : CommandUnit} (h : u.Accounted)
include h

theorem CommandUnit.batchClean_accounted (e : Option Epoch) : (u.batchClean e).1.Accounted := by
  obtain ⟨hcapacity, -, hflight, hleft, hopen⟩ := h
  refine ⟨?_, Nat.zero_le _, Nat.zero_le _, ?_, ?_⟩
  · simp only [CommandUnit.batchClean, List.length_drop]
    omega
  · simp only [CommandUnit.batchClean, List.length_drop, itemsLeft_openAccounts, postOldest_itemsLeft, hleft]
  · simp only [CommandUnit.batchClean, postOldest_eq_shareOut]
    exact openAccounts_open (fun _ _ => Account.post_open) hopen _

theorem CommandUnit.batchAborted_accounted : u.batchAborted.1.Accounted := by
  obtain ⟨hcapacity, hbatch, hflight, hleft, hopen⟩ := h
  unfold CommandUnit.batchAborted
  split
  · refine ⟨?_, Nat.zero_le _, Nat.zero_le _, ?_, ?_⟩
    · simp only [List.length_drop]
      omega
    · simp only [List.length_drop, itemsLeft_openAccounts, removeOldest_itemsLeft, hleft]
    · simp only [removeOldest_eq_shareOut]
      exact openAccounts_open (fun _ _ => Account.remove_open) hopen _
  · exact ⟨hcapacity, Nat.zero_le _, Nat.zero_le _, hleft, hopen⟩

theorem CommandUnit.withdrawn_accounted : u.withdrawn.1.Accounted := by
  obtain ⟨hcapacity, hbatch, hflight, hleft, hopen⟩ := h
  refine ⟨?_, hbatch, ?_, ?_, ?_⟩
  · simp only [CommandUnit.withdrawn, List.length_take]
    omega
  · simp only [CommandUnit.withdrawn, List.length_take]
    omega
  · simp only [CommandUnit.withdrawn, List.length_take, itemsLeft_openAccounts, removeBehind_itemsLeft, hleft]
  · simp only [CommandUnit.withdrawn, removeBehind_eq_shareOut]
    exact openAccounts_open (fun _ _ => Account.remove_open) hopen _

theorem CommandUnit.intake_accounted (tag : Tag) {items : List Item} (hsome : 1 ≤ items.length)
    (hfew : items.length ≤ 8) (hroom : items.length ≤ u.freeCapacity) : (u.intake tag items).Accounted := by
  obtain ⟨hcapacity, hbatch, hflight, hleft, hopen⟩ := h
  simp only [CommandUnit.freeCapacity] at hroom
  refine ⟨?_, hbatch, ?_, ?_, ?_⟩
  · simp only [CommandUnit.intake, List.length_append, List.length_map]
    omega
  · simp only [CommandUnit.intake, List.length_append, List.length_map]
    omega
  · simp only [itemsLeft] at hleft
    simp [CommandUnit.intake, itemsLeft, hleft, Account.remaining]
  · intro a ha
    rcases List.mem_append.mp ha with ha | ha
    · exact hopen a ha
    · rw [List.mem_singleton.mp ha]
      exact ⟨hsome, hfew, by rw [Nat.add_zero]; exact hsome, fun _ => rfl⟩

theorem CommandUnit.choose_accounted (kind : MessageKind) : (u.choose kind).Accounted := by
  obtain ⟨hcapacity, hbatch, hflight, hleft, hopen⟩ := h
  cases kind with
  | update => exact ⟨hcapacity, Nat.min_le_left _ _, Nat.min_le_right _ _, hleft, hopen⟩
  | block | audit | resyncRequest | resyncDone => exact ⟨hcapacity, hbatch, hflight, hleft, hopen⟩

end

/-! ### What a command can do to the command unit -/

/-- A property of command units that every operation of the unit keeps. -/
structure CommandUnit.Kept (P : CommandUnit → Prop) : Prop where
  dropAll : ∀ u : CommandUnit, P u.dropAll.1
  batchClean : ∀ (u : CommandUnit) e, P u → P (u.batchClean e).1
  batchAborted : ∀ u : CommandUnit, P u → P u.batchAborted.1
  withdrawn : ∀ u : CommandUnit, P u → P u.withdrawn.1
  intake : ∀ (u : CommandUnit) tag (items : List Item), P u → 1 ≤ items.length → items.length ≤ 8 → items.length ≤ u.freeCapacity →
    P (u.intake tag items)
  choose : ∀ (u : CommandUnit) kind, P u → P (u.choose kind)

theorem CommandUnit.accounted_kept : CommandUnit.Kept CommandUnit.Accounted where
  dropAll := fun u => u.dropAll_accounted
  batchClean := fun _ e h => CommandUnit.batchClean_accounted h e
  batchAborted := fun _ h => CommandUnit.batchAborted_accounted h
  withdrawn := fun _ h => CommandUnit.withdrawn_accounted h
  intake := fun _ tag _ h hsome hfew hroom => CommandUnit.intake_accounted h tag hsome hfew hroom
  choose := fun _ kind h => CommandUnit.choose_accounted h kind

/-- A field fault hands ABORTED to the owner of an UPDATE. -/
theorem State.fieldFault_command (s : State) :
    s.fieldFault.command = s.command.batchAborted.1 ∨ s.fieldFault.command = s.command := by
  unfold State.fieldFault State.receiveErrorAndAbort
  dsimp only
  split
  · exact .inl (by simp)
  · rcases s.receiveError.outcomeAborted_cases with ⟨-, h⟩ | ⟨-, h⟩ <;> rw [h] <;> simp

theorem State.outcomeClean_command (s : State) (kind : MessageKind) :
    (s.outcomeClean kind).command = (s.command.batchClean s.timer.epoch).1 ∨
      (s.outcomeClean kind).command = s.command := by
  cases kind with
  | update => exact .inl rfl
  | audit => unfold State.outcomeClean; dsimp only; split <;> exact .inr rfl
  | resyncRequest | resyncDone | block => exact .inr rfl

namespace CommandUnit.Kept

variable {P : CommandUnit → Prop} (h : CommandUnit.Kept P) {s : State}
include h

theorem mute (cause : MuteCause) (hs : P s.command) : P (s.mute cause).command := by
  unfold State.mute
  split
  · exact hs
  · exact h.dropAll s.command

theorem outcomeAborted (hs : P s.command) : P s.outcomeAborted.command := by
  rcases s.outcomeAborted_cases with ⟨-, heq⟩ | ⟨-, heq⟩ <;> rw [heq]
  · exact h.batchAborted _ hs
  · exact hs

theorem slotOutcome (hs : P s.command) : P s.slotOutcome.command := by
  have haborted := h.outcomeAborted hs
  rcases s.slotOutcome_cases with ⟨-, heq⟩ | ⟨-, -, ⟨-, heq⟩ | ⟨-, heq⟩⟩ <;> rw [heq]
  · exact hs
  · rcases s.readbackAbort_cases with ⟨-, heq⟩ | ⟨-, heq⟩ <;> rw [heq]
    · exact h.mute _ haborted
    · exact haborted
  · exact haborted

theorem takeMessage (scheduled : Rank) (read : Option (List Byte)) (hs : P s.command) :
    P (s.takeMessage scheduled read).command := by
  rcases s.takeMessage_cases scheduled read with ⟨-, heq⟩ | ⟨m, -, heq⟩ | ⟨-, -, m, -, heq⟩ | ⟨-, -, -, heq⟩ <;> rw [heq]
  · exact hs
  · unfold State.takeOwn
    rcases State.outcomeClean_command _ m.body.kind with heq | heq <;> rw [heq]
    · exact h.batchClean _ _ (by simpa using hs)
    · simpa using hs
  · unfold State.takeValid
    split
    · simpa using h.mute _ hs
    · simpa using hs
  · simpa using hs

/-- Every command does to the command unit what its operations do. -/
theorem move {c : Instr} {t : State} (hmove : Move s c t) (hs : P s.command) : P t.command := by
  cases hmove with
  | reset => exact h.dropAll CommandUnit.reset
  | accept hrow tag hactive hsome hfew hroom => exact h.intake _ _ _ hs hsome hfew hroom
  | withdraw payload tag => exact h.withdrawn _ hs
  | rejoin payload tag hstate => exact h.dropAll s.command
  | fieldFault hrow hround =>
    rcases s.fieldFault_command with heq | heq <;> rw [heq]
    · exact h.batchAborted _ hs
    · exact hs
  | select hround hfield hdrives =>
    unfold State.select
    split
    · exact h.choose _ _ hs
    · exact hs
  | endSlot hrow hround =>
    rw [State.endSlot_frame s |>.2.1]
    exact h.slotOutcome hs
  | message read hround hslot =>
    rw [State.endSlot_frame _ |>.2.1]
    exact h.slotOutcome (h.takeMessage _ _ hs)
  | pixelWord | countLine | endFrame | mark => simpa using hs
  | idle | configured | configFaulted | commandWord | answer | recordSent | seekGap | idleGap
  | dominantLevel | driveStartPulse | followRound | damageSlot | originField | markSlot | reserve | transmit
  | mismatch => exact hs

end CommandUnit.Kept

end Sys2Proof.Machine
end

section
/-! What a command can do to the source port, and the statements about the two queues (R81, R150 to R152). -/

namespace Sys2Proof.Machine

-- One thread, as for the tests: proofs elaborated side by side would exceed the build's memory limit.
set_option Elab.async false

open Sys2Proof.Safety

/-! ### What a command can do to the source port -/

/-- A property of source ports that every operation of the port keeps. -/
structure SourcePort.Kept (P : SourcePort → Prop) : Prop where
  reset : P SourcePort.reset
  enqueue : ∀ p r, P p → P (p.enqueue r)
  cue : ∀ p cue, P p → P { p with cue := cue }
  assembly : ∀ p assembly, P p → P { p with assembly := assembly }
  finishRecord : ∀ p, P p → P p.finishRecord

namespace SourcePort.Kept

variable {P : SourcePort → Prop} (h : SourcePort.Kept P) {s : State}
include h

theorem enqueueAll {p : SourcePort} (rs : List Record) (hp : P p) : P (p.enqueueAll rs) := by
  induction rs generalizing p with
  | nil => exact hp
  | cons r rs ih => exact ih (h.enqueue p r hp)

theorem eitherOrder {records : List Record} {queues : Bool} {act : State → State}
    (hact : ∀ s : State, P s.port → P (act s).port) (hs : P s.port) : P (s.eitherOrder records queues act).port := by
  rcases s.eitherOrder_cases records queues act with ⟨-, heq⟩ | ⟨-, -, port, hport, heq⟩ <;> rw [heq]
  · exact h.enqueueAll _ (hact s hs)
  · rcases hport with rfl | rfl
    · exact hact _ (h.enqueueAll _ hs)
    · exact h.enqueueAll _ (hact s hs)

theorem applyClosed (torn : Bool) (hs : P s.port) : P (s.applyClosed torn).port := by
  rcases s.applyClosed_cases torn with ⟨-, heq⟩ | ⟨g, -, heq⟩ <;> rw [heq]
  · exact hs
  · exact h.enqueueAll _ hs

theorem outcomeAborted (hs : P s.port) : P s.outcomeAborted.port := by
  rcases s.outcomeAborted_cases with ⟨-, heq⟩ | ⟨-, heq⟩ <;> rw [heq]
  · exact h.enqueueAll _ hs
  · exact hs

theorem outcomeClean (kind : MessageKind) (hs : P s.port) : P (s.outcomeClean kind).port := by
  cases kind with
  | update => exact h.enqueueAll _ hs
  | audit => unfold State.outcomeClean; dsimp only; split <;> exact hs
  | resyncRequest | resyncDone | block => exact hs

theorem mute (cause : MuteCause) (hs : P s.port) : P (s.mute cause).port := by
  unfold State.mute
  split
  · exact hs
  · exact h.enqueueAll _ (h.enqueue _ _ hs)

theorem receiveError (hs : P s.port) : P s.receiveError.port := by
  rcases s.receiveError_cases with ⟨-, heq⟩ | ⟨-, heq⟩ | ⟨-, heq⟩ | heq <;> rw [heq]
  · exact h.enqueue _ _ hs
  · exact hs
  · exact hs
  · exact hs

theorem fieldFault (hs : P s.port) : P s.fieldFault.port := by
  have hboth : P s.receiveErrorAndAbort.port := by
    unfold State.receiveErrorAndAbort
    split
    · exact h.eitherOrder (fun _ => h.receiveError) hs
    · exact h.outcomeAborted (h.receiveError hs)
  exact hboth

theorem beginLine (c : Settings) (line : Nat) (hs : P s.port) : P (s.beginLine c line).port := h.cue _ _ hs

theorem handPixel (payload : Word) (hs : P s.port) : P (s.handPixel payload).port := by
  unfold State.handPixel
  repeat' split
  · exact h.enqueueAll _ hs
  · exact hs
  · exact hs

theorem endAssembly (hs : P s.port) : P s.endAssembly.port := by
  unfold State.endAssembly
  split
  · exact h.enqueue _ _ (h.assembly _ _ hs)
  · exact hs

theorem timerMark (c : Settings) (adopted : Epoch) (hs : P s.port) : P (s.timerMark c adopted).port := by
  have hcorrect : ∀ t : State, P t.port → P (t.correct c).port := by
    intro t ht
    unfold State.correct
    split
    · exact ht
    all_goals
      rcases t.catchUp_cases c (c.totalLines - t.timer.line) with ⟨-, -, heq⟩ | ⟨-, -, heq⟩ | ⟨-, heq⟩ <;> rw [heq]
      · exact ht
      · exact h.beginLine _ _ ht
      · exact h.beginLine _ _ (h.enqueue _ _ ht)
  exact hcorrect _ (h.enqueueAll _ hs)

theorem storeMark (c : Settings) (line : Nat) (adopted : Epoch) (offset : Int) (hs : P s.port) :
    P (s.storeMark c line adopted offset).port := by
  unfold State.storeMark State.closeGeneration
  dsimp only
  repeat' split
  · exact h.applyClosed _ (h.applyClosed _ hs)
  · exact h.applyClosed _ hs
  · exact hs

theorem closeWindow (w : AuditWindow) (hs : P s.port) : P (s.closeWindow w).port := by
  have hlate := h.enqueueAll (s.members.lateRecords w) hs
  rcases s.closeWindow_cases w with ⟨-, -, heq⟩ | heq <;> rw [heq]
  · exact h.enqueue _ _ hlate
  · exact hlate

theorem windowMark (c : Settings) (adopted : Epoch) (hs : P s.port) : P (s.windowMark c adopted).port := by
  unfold State.windowMark
  repeat' split
  · exact h.closeWindow _ hs
  · exact hs
  · exact h.closeWindow _ hs
  · exact hs
  · exact hs

theorem memberMark (c : Settings) (old : Option Epoch) (adopted : Epoch) (hs : P s.port) :
    P (s.memberMark c old adopted).port := by
  cases old with
  | none =>
    simp only [State.memberMark]
    split <;> exact hs
  | some old => exact h.windowMark _ _ (h.enqueueAll _ hs)

theorem waitMark (c : Settings) (repairingBefore eligibleBefore : Bool) (hs : P s.port) :
    P (s.waitMark c repairingBefore eligibleBefore).port := by
  rcases s.waitMark_cases c repairingBefore eligibleBefore with ⟨-, -, -, heq⟩ | ⟨-, -, -, heq⟩ | heq <;> rw [heq]
  · exact h.enqueue _ _ hs
  · exact hs
  · exact hs

omit h in
theorem run {acts : List (State → State)} (hacts : ∀ act ∈ acts, ∀ s : State, P s.port → P (act s).port)
    (hs : P s.port) : P (s.run acts).port := by
  induction acts generalizing s with
  | nil => exact hs
  | cons act acts ih =>
    exact ih (fun a ha => hacts a (List.mem_cons_of_mem _ ha)) (hacts act (List.mem_cons_self ..) s hs)

theorem markActions (c : Settings) (adopted : Epoch) :
    ∀ act ∈ s.markActions c adopted, ∀ t : State, P t.port → P (act t).port := by
  have htimer : ∀ t : State, P t.port → P (t.timerMark c adopted).port := fun t => h.timerMark c adopted
  have hstore : ∀ t : State, P t.port →
      P (t.storeMark c s.timer.line adopted (offsetAt c s.timer.phase s.timer.line)).port := fun t => h.storeMark _ _ _ _
  have hmembers : ∀ t : State, P t.port → P (t.stationMark.memberMark c s.timer.epoch adopted).port := fun t ht =>
    h.memberMark _ _ _ (by simpa using ht)
  have hresync : ∀ t : State, P t.port → P (t.waitMark c s.station.state.repairing s.anyEligible).port := fun t =>
    h.waitMark _ _ _
  rcases s.markActions_cases c adopted with heq | ⟨-, heq | heq⟩ <;> rw [heq] <;>
    simp only [List.forall_mem_cons, List.not_mem_nil, false_implies, implies_true, and_true] <;>
    exact ⟨by assumption, by assumption, by assumption, by assumption⟩

theorem takeMark (c : Settings) (adopted : Epoch) (hs : P s.port) : P (s.takeMark c adopted).port := by
  have hacts := h.markActions (s := s) c adopted
  suffices hport : P (s.markPort c adopted) from hport
  unfold State.markPort
  dsimp only
  split
  · exact run hacts hs
  · refine run (fun act hact => ?_) hs
    rcases List.eq_or_mem_of_mem_insertIdx hact with rfl | hact
    · exact fun t ht => h.enqueueAll _ ht
    · exact hacts act hact

theorem slotOutcome (hs : P s.port) : P s.slotOutcome.port := by
  have haborted := h.outcomeAborted hs
  rcases s.slotOutcome_cases with ⟨-, heq⟩ | ⟨-, -, ⟨-, heq⟩ | ⟨-, heq⟩⟩ <;> rw [heq]
  · exact hs
  · rcases s.readbackAbort_cases with ⟨-, heq⟩ | ⟨-, heq⟩ <;> rw [heq]
    · exact h.mute _ haborted
    · exact haborted
  · exact haborted

theorem takeHeader (m : Message) (hs : P s.port) : P (s.takeHeader m).port := by
  unfold State.takeHeader
  split
  · exact h.enqueueAll _ hs
  · exact hs

theorem takeBody (m : Message) (hs : P s.port) : P (s.takeBody m).port := by
  unfold State.takeBody
  split
  · exact hs
  · exact hs
  · simpa using hs
  · exact hs
  · unfold State.takeBlock State.install
    dsimp only
    repeat' split
    · exact h.enqueue _ _ hs
    · exact hs
    · exact hs

theorem takeMessage (scheduled : Rank) (read : Option (List Byte)) (hs : P s.port) :
    P (s.takeMessage scheduled read).port := by
  rcases s.takeMessage_cases scheduled read with ⟨-, heq⟩ | ⟨m, -, heq⟩ | ⟨-, -, m, -, heq⟩ | ⟨-, -, -, heq⟩ <;> rw [heq]
  · exact hs
  · exact h.outcomeClean _ (h.takeBody _ (h.takeHeader _ hs))
  · unfold State.takeValid
    split
    · exact h.takeBody _ (h.mute _ hs)
    · exact h.takeBody _ (h.takeHeader _ hs)
  · exact h.receiveError hs

theorem countLine (c : Settings) (hs : P s.port) : P (s.countLine c).port := by
  refine h.eitherOrder (fun t ht => ?_) (h.beginLine _ _ hs)
  split
  · exact h.applyClosed _ ht
  · exact ht

theorem endFrame (c : Settings) (hs : P s.port) : P (s.endFrame c).port := by
  refine h.eitherOrder (fun t ht => ?_) (h.beginLine c 0 hs)
  unfold State.listen
  repeat' split
  · exact h.enqueue _ _ ht
  · exact ht
  · exact ht

/-- Every command does to the source port what its operations do. -/
theorem move {c : Instr} {t : State} (hmove : Move s c t) (hs : P s.port) : P t.port := by
  have hafter : P s.afterCommand.port := h.assembly _ _ hs
  cases hmove with
  | reset => exact h.reset
  | configured hstate hread => exact h.cue _ _ hs
  | configFaulted hstate => exact h.enqueue _ _ hs
  | pixelWord payload => exact h.handPixel _ (h.endAssembly hs)
  | commandWord payload a => exact h.assembly _ _ hs
  | answer hrow r => exact h.enqueue _ _ hafter
  | accept hrow tag hactive hsome hfew hroom => exact h.enqueue _ _ hafter
  | withdraw payload tag => exact h.enqueueAll _ (h.enqueue _ _ hafter)
  | rejoin payload tag hstate => exact h.enqueueAll _ (h.enqueue _ _ hafter)
  | recordSent => exact h.finishRecord _ hs
  | countLine hconfig hrunning hline => exact h.countLine _ hs
  | endFrame hconfig hrunning hline => exact h.endFrame _ hs
  | fieldFault hrow hround => exact h.fieldFault hs
  | mark others hconfig hrunning hround hfield => exact h.takeMark _ _ hs
  | select hround hfield hdrives => simpa using hs
  | endSlot hrow hround => exact h.slotOutcome hs
  | message read hround hslot => exact h.slotOutcome (h.takeMessage _ _ hs)
  | idle | seekGap | idleGap | dominantLevel | driveStartPulse | followRound | damageSlot | originField | markSlot
  | reserve | transmit | mismatch => exact hs

end SourcePort.Kept

/-! ### The capacities (R150, R151) -/

/-- The part of `ReportsBounded` that speaks of the port alone. -/
def SourcePort.Bounded (p : SourcePort) : Prop :=
  p.reports.length ≤ Config.reportCapacity ∧ p.omitted ≤ Config.omittedLimit ∧
    ∀ r ∈ p.reports, r.omitted ≤ Config.omittedLimit

theorem SourcePort.bounded_kept : SourcePort.Kept SourcePort.Bounded where
  reset := ⟨Nat.zero_le _, Nat.zero_le _, fun r h => by cases h⟩
  enqueue := fun p r ⟨hlength, homitted, hstamps⟩ => by
    rcases p.enqueue_cases r with ⟨hroom, heq⟩ | ⟨-, heq⟩ <;> rw [heq]
    · refine ⟨by simpa using hroom, Nat.zero_le _, fun r' hr' => ?_⟩
      rcases List.mem_append.mp hr' with hr' | hr'
      · exact hstamps r' hr'
      · rw [List.mem_singleton.mp hr']
        exact homitted
    · exact ⟨hlength, Nat.min_le_left _ _, hstamps⟩
  cue := fun _ _ h => h
  assembly := fun _ _ h => h
  finishRecord := fun p ⟨hlength, homitted, hstamps⟩ => by
    unfold SourcePort.finishRecord
    split
    next r rest heq =>
      rw [heq] at hlength hstamps
      exact ⟨Nat.le_of_succ_le hlength, homitted, fun r' hr' => hstamps r' (List.mem_cons_of_mem _ hr')⟩
    next => exact ⟨hlength, homitted, hstamps⟩

/-- Settles O56: both relations are kept by every operation of their block, and a command does no more to it than these. -/
theorem stepsKeepTheQueuesAccounted : Obligations.StepsKeepTheQueuesAccounted := fun _ _ hstep =>
  ⟨step_keeps (Inv := ReportsBounded) (fun _ _ h => h) (fun hmove h => SourcePort.bounded_kept.move hmove h) hstep,
    step_keeps (Inv := QueueAccounted) (fun _ _ h => h) (fun hmove h => CommandUnit.accounted_kept.move hmove h) hstep⟩

/-- Settles O28: the outcomes are the posting or the removal of the batch, and the settling of the accounts. -/
theorem outcomesSettleTheBatch : Obligations.OutcomesSettleTheBatch := by
  intro u epoch posted removed settle
  refine ⟨rfl, fun hmark => ?_, fun hmark => ?_⟩
  · rw [CommandUnit.batchAborted, hmark]
    simp
  · rw [CommandUnit.batchAborted, if_pos hmark]
    rfl

/-- Settles O10: a WITHDRAW has no arguments that could be refused. -/
theorem withdrawRemovesTheRest : Obligations.WithdrawRemovesTheRest := by
  intro s payload tag hcomplete accounts
  rw [exec_withdraw_of_completes hcomplete, if_pos rfl]
  rfl

/-- Settles O15: the two cases of a queue with and without room, and the head record that the lane has finished. -/
theorem recordsAreQueuedOmittedAndSent : Obligations.RecordsAreQueuedOmittedAndSent := by
  refine ⟨fun p r rest => ⟨fun hroom => if_pos hroom, fun hfull hcount => ?_, fun hfull hcount => ?_, rfl, rfl⟩,
    fun s => ⟨fun r rest hreports => ?_, fun hreports => ?_⟩⟩
  · rw [SourcePort.enqueue, if_neg (by simp [hfull, Config.reportCapacity]), Nat.min_eq_right]
    exact hcount
  · rw [SourcePort.enqueue, if_neg (by simp [hfull, Config.reportCapacity]), hcount]
    rw [Config.omittedLimit, Nat.min_eq_left (by norm_num), ← hcount]
  · rw [exec_next_iff, after_recordSent, SourcePort.finishRecord, hreports]
  · rw [exec_next_iff, after_recordSent, SourcePort.finishRecord, hreports]

end Sys2Proof.Machine
end

section
/-! The timing and the epoch of a station (spec/03_epochs_and_frame_timing.md, spec/08_station_lifecycle.md; R32, R33, R37, R39,
R48, R51, R125): how the station state moves, and the two invariants `TimingSound` and `EpochSound`. -/

namespace Sys2Proof.Machine

-- One thread, as for the tests: proofs elaborated side by side would exceed the build's memory limit.
set_option Elab.async false

open Sys2Proof.Safety

/-! ### How the station state moves -/

theorem State.receiveError_station (s : State) :
    s.receiveError.station = if s.station.state = .inStep then { s.station with state := .diverged } else s.station := by
  unfold State.receiveError
  split <;> simp_all

theorem State.fieldFault_station (s : State) :
    s.fieldFault.station = if s.station.state = .inStep then { s.station with state := .diverged } else s.station := by
  unfold State.fieldFault State.receiveErrorAndAbort
  dsimp only
  split <;> simp [State.receiveError_station]

/-- A body changes the station state by the completion of a repair alone (R116). -/
theorem State.takeBody_station (s : State) (m : Message) :
    (s.takeBody m).station = s.station ∨
      s.station.state.repairing = true ∧ (s.takeBody m).station = { s.station with state := .inStep } := by
  unfold State.takeBody
  split
  · exact .inl rfl
  · exact .inl rfl
  · exact .inl (by simp)
  · exact .inl rfl
  · unfold State.takeBlock State.installs State.install
    dsimp only
    split
    next hinstalls =>
      simp only [Bool.and_eq_true] at hinstalls
      split
      · exact .inr ⟨hinstalls.1.1, rfl⟩
      · exact .inl rfl
    next => exact .inl rfl

theorem State.windowMark_station (s : State) (c : Settings) (adopted : Epoch) :
    (s.windowMark c adopted).station = s.station ∨
      s.station.state = .inStep ∧ (s.windowMark c adopted).station = { s.station with state := .diverged } := by
  have hclose : ∀ w, (s.closeWindow w).station = s.station ∨
      s.station.state = .inStep ∧ (s.closeWindow w).station = { s.station with state := .diverged } := by
    intro w
    rcases s.closeWindow_cases w with ⟨-, hstate, heq⟩ | heq <;> rw [heq]
    · exact .inr ⟨hstate, rfl⟩
    · exact .inl rfl
  unfold State.windowMark
  repeat' split
  · exact hclose _
  · exact .inl rfl
  · exact hclose _
  · exact .inl rfl
  · exact .inl rfl

theorem State.memberMark_station (s : State) (c : Settings) (old : Option Epoch) (adopted : Epoch) :
    (s.memberMark c old adopted).station = s.station ∨
      s.station.state = .inStep ∧ (s.memberMark c old adopted).station = { s.station with state := .diverged } := by
  cases old with
  | none =>
    simp only [State.memberMark]
    split <;> exact .inl rfl
  | some old => exact State.windowMark_station _ c adopted

theorem State.waitMark_station (s : State) (c : Settings) (repairingBefore eligibleBefore : Bool) :
    (s.waitMark c repairingBefore eligibleBefore).station = s.station ∨
      repairingBefore = true ∧ s.station.state.repairing = true ∧
        (s.waitMark c repairingBefore eligibleBefore).station = { s.station with state := .inStep } := by
  rcases s.waitMark_cases c repairingBefore eligibleBefore with ⟨hb, hr, -, heq⟩ | ⟨-, -, -, heq⟩ | heq <;> rw [heq]
  · exact .inr ⟨hb, hr, rfl⟩
  · exact .inl rfl
  · exact .inl rfl

/-- What each act of a mark keeps, the whole mark keeps. -/
theorem State.markActions_keep {Q : State → Prop} {s : State} {c : Settings} {adopted : Epoch}
    (htimer : ∀ t, Q t → Q (t.timerMark c adopted))
    (hstore : ∀ t, Q t → Q (t.storeMark c s.timer.line adopted (offsetAt c s.timer.phase s.timer.line)))
    (hmembers : ∀ t, Q t → Q (t.stationMark.memberMark c s.timer.epoch adopted))
    (hresync : ∀ t, Q t → Q (t.waitMark c s.station.state.repairing s.anyEligible)) (hs : Q s) :
    Q (s.run (s.markActions c adopted)) := by
  rcases s.markActions_cases c adopted with h | ⟨-, h | h⟩ <;> rw [h] <;> simp only [State.run_cons, State.run_nil]
  · exact hresync _ (hmembers _ (hstore _ (htimer _ hs)))
  · exact hmembers _ (hstore _ (hresync _ (htimer _ hs)))
  · exact hmembers _ (hresync _ (hstore _ (htimer _ hs)))

/-- A station that is not repairing promotes nothing, so the four acts stand in their order. -/
theorem State.markActions_of_not_repairing {s : State} (h : s.station.state.repairing = false) (c : Settings)
    (adopted : Epoch) :
    s.markActions c adopted =
      [ fun t => t.timerMark c adopted,
        fun t => t.storeMark c s.timer.line adopted (offsetAt c s.timer.phase s.timer.line),
        fun t => t.stationMark.memberMark c s.timer.epoch adopted,
        fun t => t.waitMark c s.station.state.repairing s.anyEligible ] := by
  rcases s.markActions_cases c adopted with heq | ⟨hpromotes, -⟩
  · exact heq
  · simp [State.promotes, h] at hpromotes

theorem State.stationMark_of_not_listening {s : State} (h : s.station.state ≠ .listening) : s.stationMark = s := if_neg h

@[simp] theorem State.takeMark_station (s : State) (c : Settings) (adopted : Epoch) :
    (s.takeMark c adopted).station = (s.run (s.markActions c adopted)).station := by
  simp [State.takeMark]

/-- A mark makes a LISTENING station JOINING. -/
theorem State.takeMark_of_listening {s : State} (h : s.station.state = .listening) (c : Settings) (adopted : Epoch) :
    (s.takeMark c adopted).station = ⟨.joining, 0⟩ := by
  have hwait := fun t : State => t.waitMark_station c s.station.state.repairing s.anyEligible
  simp only [State.takeMark_station, s.markActions_of_not_repairing (by rw [h]; rfl), State.run_cons, State.run_nil]
  rcases hwait _ with hkept | ⟨hrepairing, -⟩
  · have hjoining : ∀ t : State, t.station.state = .listening → t.stationMark.station = ⟨.joining, 0⟩ := fun t ht => by
      simp [State.stationMark, ht]
    rcases State.memberMark_station _ c s.timer.epoch adopted with hmember | ⟨hstep, -⟩
    · rw [hkept, hmember, hjoining _ (by simpa using h)]
    · rw [hjoining _ (by simpa using h)] at hstep
      cases hstep
  · rw [h] at hrepairing
    cases hrepairing

/-- A mark leaves an active station active. -/
theorem State.takeMark_of_active {s : State} (h : s.active = true) (c : Settings) (adopted : Epoch) :
    (s.takeMark c adopted).active = true := by
  rw [State.active, State.takeMark_station]
  refine State.markActions_keep (Q := fun t => t.station.state.active = true) (fun t ht => by simpa using ht)
    (fun t ht => by simpa using ht) (fun t ht => ?_) (fun t ht => ?_) h
  · have hstate : t.station.state ≠ .listening := fun hl => by rw [hl] at ht; cases ht
    rw [State.stationMark_of_not_listening hstate]
    rcases t.memberMark_station c s.timer.epoch adopted with heq | ⟨-, heq⟩ <;> rw [heq]
    · exact ht
    · rfl
  · rcases t.waitMark_station c s.station.state.repairing s.anyEligible with heq | ⟨-, -, heq⟩ <;> rw [heq]
    · exact ht
    · rfl

/-- A mark keeps the state of a station that is neither active nor LISTENING. -/
theorem State.takeMark_of_outside {s : State} (hactive : s.active = false) (hlistening : s.station.state ≠ .listening)
    (c : Settings) (adopted : Epoch) : (s.takeMark c adopted).station = s.station := by
  rw [State.takeMark_station]
  refine State.markActions_keep (Q := fun t => t.station = s.station) (fun t ht => by simpa using ht)
    (fun t ht => by simpa using ht) (fun t ht => ?_) (fun t ht => ?_) rfl
  · rw [State.stationMark_of_not_listening (ht ▸ hlistening)]
    rcases t.memberMark_station c s.timer.epoch adopted with heq | ⟨hstate, -⟩
    · rw [heq, ht]
    · rw [ht] at hstate
      rw [State.active, hstate] at hactive
      cases hactive
  · rcases t.waitMark_station c s.station.state.repairing s.anyEligible with heq | ⟨-, hrepairing, -⟩
    · rw [heq, ht]
    · rw [ht] at hrepairing
      rw [State.active] at hactive
      cases hstate : s.station.state <;> rw [hstate] at hrepairing hactive <;> simp_all [StationState.repairing,
        StationState.active]

/-! ### Configured stations (R125) -/

theorem configured_of_active {s : State} (h : s.active = true) : Configured s := by
  rw [State.active] at h
  constructor <;> intro hstate <;> rw [hstate] at h <;> cases h

theorem configured_of_station {s : State} {state : StationState} {count : Nat} (h : s.station = ⟨state, count⟩)
    (hc : state ≠ .configuring) (hf : state ≠ .configFault) : Configured s := by
  rw [Configured, h]
  exact ⟨hc, hf⟩

/-! ### What the end of a slot keeps of the timer and of the place in the round -/

@[simp] theorem State.mute_timing (s : State) (cause : MuteCause) :
    (s.mute cause).timer.running = s.timer.running ∧ (s.mute cause).timer.line = s.timer.line ∧
      (s.mute cause).timer.epoch = s.timer.epoch ∧ (s.mute cause).timer.phase = s.timer.phase ∧
      (s.mute cause).timer.lastOffset = s.timer.lastOffset := by
  obtain ⟨-, -, -, -, -, htimer⟩ := s.mute_frame cause
  rw [htimer]
  exact ⟨rfl, rfl, rfl, rfl, rfl⟩

@[simp] theorem State.mute_place (s : State) (cause : MuteCause) :
    (s.mute cause).bus.round = s.bus.round ∧ (s.mute cause).bus.schedule = s.bus.schedule ∧
      (s.mute cause).bus.slot = s.bus.slot ∧ (s.mute cause).bus.belief = s.bus.belief ∧
      (s.mute cause).bus.partDriven = s.bus.partDriven := by
  unfold State.mute
  split <;> exact ⟨rfl, rfl, rfl, rfl, rfl⟩

theorem State.receiveError_bus (s : State) :
    s.receiveError.bus = { s.bus with suspect := s.receiveError.bus.suspect } := by
  rcases s.receiveError_cases with ⟨-, h⟩ | ⟨-, h⟩ | ⟨-, h⟩ | h <;> simp [h]

@[simp] theorem State.slotOutcome_timing (s : State) :
    s.slotOutcome.timer.running = s.timer.running ∧ s.slotOutcome.timer.line = s.timer.line ∧
      s.slotOutcome.timer.epoch = s.timer.epoch ∧ s.slotOutcome.timer.phase = s.timer.phase ∧
      s.slotOutcome.timer.lastOffset = s.timer.lastOffset := by
  rcases s.slotOutcome_cases with ⟨-, h⟩ | ⟨-, -, ⟨-, h⟩ | ⟨-, h⟩⟩ <;> rw [h]
  · simp
  · rcases s.readbackAbort_cases with ⟨-, h⟩ | ⟨-, h⟩ <;> simp [h]
  · simp

@[simp] theorem State.slotOutcome_place (s : State) :
    s.slotOutcome.bus.round = s.bus.round ∧ s.slotOutcome.bus.schedule = s.bus.schedule ∧
      s.slotOutcome.bus.slot = s.bus.slot ∧ s.slotOutcome.bus.belief = s.bus.belief ∧
      s.slotOutcome.bus.partDriven = s.bus.partDriven := by
  rcases s.slotOutcome_cases with ⟨-, h⟩ | ⟨-, -, ⟨-, h⟩ | ⟨-, h⟩⟩ <;> rw [h]
  · simp
  · rcases s.readbackAbort_cases with ⟨-, h⟩ | ⟨-, h⟩ <;> simp [h]
  · simp

/-- The end of a slot mutes the station at the eighth readback abort in a row, and else keeps its state. -/
theorem State.slotOutcome_station (s : State) :
    s.slotOutcome.station = s.station ∨
      s.bus.chosen ≠ none ∧ s.bus.drive = .abortPattern ∧
        s.slotOutcome.station = { s.station with state := .muted } := by
  rcases s.slotOutcome_cases with ⟨-, h⟩ | ⟨-, hchosen, ⟨hdrive, h⟩ | ⟨-, h⟩⟩ <;> rw [h]
  · exact .inl rfl
  · rcases s.readbackAbort_cases with ⟨-, h⟩ | ⟨-, h⟩ <;> rw [h]
    · exact .inr ⟨hchosen, hdrive, by simp⟩
    · exact .inl (by simp)
  · exact .inl (by simp)

@[simp] theorem State.takeMessage_timing (s : State) (r : Rank) (read : Option (List Byte)) :
    (s.takeMessage r read).timer.running = s.timer.running ∧ (s.takeMessage r read).timer.line = s.timer.line ∧
      (s.takeMessage r read).timer.epoch = s.timer.epoch ∧ (s.takeMessage r read).timer.phase = s.timer.phase ∧
      (s.takeMessage r read).timer.lastOffset = s.timer.lastOffset := by
  rcases s.takeMessage_cases r read with ⟨-, h⟩ | ⟨m, -, h⟩ | ⟨-, -, m, -, h⟩ | ⟨-, -, -, h⟩ <;> rw [h]
  · simp
  · simp
  · unfold State.takeValid
    split <;> simp
  · simp

@[simp] theorem State.takeMessage_place (s : State) (r : Rank) (read : Option (List Byte)) :
    (s.takeMessage r read).bus.round = s.bus.round ∧ (s.takeMessage r read).bus.schedule = s.bus.schedule ∧
      (s.takeMessage r read).bus.slot = s.bus.slot ∧ (s.takeMessage r read).bus.belief = s.bus.belief ∧
      (s.takeMessage r read).bus.partDriven = s.bus.partDriven := by
  rcases s.takeMessage_cases r read with ⟨-, h⟩ | ⟨m, -, h⟩ | ⟨-, -, m, -, h⟩ | ⟨-, -, -, h⟩ <;> rw [h]
  · simp
  · simp
  · unfold State.takeValid
    split <;> simp
  · rw [State.receiveError_bus]
    simp

/-- A message changes the station state by a completed repair, a receive error IN STEP, or the own rank heard. -/
theorem State.takeMessage_station (s : State) (r : Rank) (read : Option (List Byte)) :
    (s.takeMessage r read).station = s.station ∨
      (s.station.state.repairing = true ∧ (s.takeMessage r read).station = { s.station with state := .inStep }) ∨
      (s.station.state = .inStep ∧ (s.takeMessage r read).station = { s.station with state := .diverged }) ∨
      (s.rank?.isSome = true ∧ (s.takeMessage r read).station = { s.station with state := .muted }) := by
  rcases s.takeMessage_cases r read with ⟨-, h⟩ | ⟨m, -, h⟩ | ⟨-, -, m, -, h⟩ | ⟨-, -, -, h⟩ <;> rw [h]
  · exact .inl rfl
  · simp only [State.takeOwn, State.outcomeClean_frame]
    rcases State.takeBody_station _ m with heq | ⟨hrepairing, heq⟩ <;> rw [heq]
    · exact .inl (by simp)
    · exact .inr (.inl ⟨by simpa using hrepairing, by simp⟩)
  · unfold State.takeValid
    split
    next hown =>
      rcases State.takeBody_station _ m with heq | ⟨hrepairing, -⟩
      · exact .inr (.inr (.inr ⟨by rw [hown]; rfl, by rw [heq]; simp⟩))
      · simp [StationState.repairing] at hrepairing
    next =>
      rcases State.takeBody_station _ m with heq | ⟨hrepairing, heq⟩ <;> rw [heq]
      · exact .inl (by simp)
      · exact .inr (.inl ⟨by simpa using hrepairing, by simp⟩)
  · rw [State.receiveError_station]
    split
    next hstate => exact .inr (.inr (.inl ⟨hstate, rfl⟩))
    next => exact .inl rfl

/-- The controller after a slot is in its round still, or in the gap after it. -/
theorem BusController.endSlot_round (b : BusController) : b.endSlot.round = b.round ∨ b.endSlot.round = .gap := by
  rcases b.endSlot_cases with ⟨-, h⟩ | ⟨-, belief, h, -⟩ <;> rw [h]
  · exact .inl rfl
  · exact .inr rfl

theorem BusController.endSlot_drive (b : BusController) : b.endSlot.drive = .recessive := by
  rcases b.endSlot_cases with ⟨-, h⟩ | ⟨-, belief, h, -⟩ <;> simp [h, BusController.leaveRound]

/-- The end of a slot leaves a configured station configured. -/
theorem configured_slotOutcome {s : State} (h : Configured s) : Configured s.slotOutcome := by
  rcases s.slotOutcome_station with heq | ⟨-, -, heq⟩
  · rwa [Configured, heq]
  · exact configured_of_station heq nofun nofun

theorem configured_takeMessage {s : State} (r : Rank) (read : Option (List Byte)) (h : Configured s) :
    Configured (s.takeMessage r read) := by
  rcases s.takeMessage_station r read with heq | ⟨-, heq⟩ | ⟨-, heq⟩ | ⟨-, heq⟩
  · rwa [Configured, heq]
  all_goals exact configured_of_station heq nofun nofun

theorem configured_takeMark {s : State} (c : Settings) (adopted : Epoch) (h : Configured s) :
    Configured (s.takeMark c adopted) := by
  by_cases hactive : s.active = true
  · exact configured_of_active (State.takeMark_of_active hactive c adopted)
  · by_cases hlistening : s.station.state = .listening
    · exact configured_of_station (State.takeMark_of_listening hlistening c adopted) nofun nofun
    · rwa [Configured, State.takeMark_of_outside (by simpa using hactive) hlistening]

/-! ### The epoch timer at a mark (R41 to R44) -/

@[simp] theorem State.takeMark_timer (s : State) (c : Settings) (adopted : Epoch) :
    (s.takeMark c adopted).timer = (s.timerMark c adopted).timer := by
  rcases s.markActions_cases c adopted with h | ⟨-, h | h⟩ <;> simp [State.takeMark, h]

/-- The timer after its part of a mark: the epoch adopted, the offset stored, and the line kept, advanced or 0. -/
theorem State.timerMark_timer (s : State) (c : Settings) (adopted : Epoch) :
    (s.timerMark c adopted).timer.running = s.timer.running ∧ (s.timerMark c adopted).timer.epoch = some adopted ∧
      (s.timerMark c adopted).timer.markPending = false ∧
      (s.timerMark c adopted).timer.lastOffset = some (offsetAt c s.timer.phase s.timer.line) ∧
      ((s.timerMark c adopted).timer.line = s.timer.line ∨ (s.timerMark c adopted).timer.line = 0 ∨
        (s.timerMark c adopted).timer.line < c.totalLines) := by
  unfold State.timerMark State.correct
  split
  · exact ⟨rfl, rfl, rfl, rfl, .inl rfl⟩
  all_goals
    rcases State.catchUp_cases _ c (c.totalLines - s.timer.line) with ⟨-, hline, heq⟩ | ⟨-, -, heq⟩ | ⟨-, heq⟩ <;>
      simp only [EpochTimer.adopt] at heq ⊢ <;> rw [heq]
    · exact ⟨rfl, rfl, rfl, rfl, .inr (.inr hline)⟩
    · exact ⟨rfl, rfl, rfl, rfl, .inr (.inl rfl)⟩
    · exact ⟨rfl, rfl, rfl, rfl, .inr (.inl rfl)⟩

theorem offsetAt_bounds {c : Settings} {n : Nat} (phase : FramePhase) (h : n < c.totalLines) :
    -(c.totalLines : Int) ≤ offsetAt c phase n ∧ offsetAt c phase n < c.totalLines := by
  cases phase <;> simp only [offsetAt] <;> omega

/-! ### `TimingSound` (R32, R33, R51, R125, R166) -/

/-- The line and the last offset of a configured station stay within its frame. -/
def WithinFrame (c : Settings) (t : EpochTimer) : Prop :=
  t.line < c.totalLines ∧ ∀ m ∈ t.lastOffset, -(c.totalLines : Int) ≤ m ∧ m < c.totalLines

/-- What `TimingSound` says of a configured station. -/
theorem timingSound_iff_of_configured {s : State} (h : Configured s) :
    TimingSound s ↔ s.timer.running = true ∧ s.bus.round ≠ .off ∧
      ∃ c, s.loader.config = some c ∧ settingsInRange c = true ∧ WithinFrame c s.timer := by
  constructor
  · rintro ⟨hrunning, hconfig, hround, hframe, -, -⟩
    obtain ⟨c, hc⟩ := Option.isSome_iff_exists.mp (hconfig.mpr h)
    obtain ⟨hrange, hline, hoffset⟩ := hframe c hc
    exact ⟨hrunning.mpr h, fun hoff => hround.mp hoff h, c, hc, hrange, hline, hoffset⟩
  · rintro ⟨hrunning, hround, c, hc, hrange, hline, hoffset⟩
    refine ⟨iff_of_true hrunning h, iff_of_true (by simp [hc]) h, iff_of_false hround (not_not_intro h), fun c' hc' => ?_,
      by simp [hc], .inl h⟩
    rw [hc] at hc'
    cases hc'
    exact ⟨hrange, hline, hoffset⟩

/-- A configured station stays sound where its round is not left and its line and offset stay within the frame. -/
theorem timingSound_of_configured {s t : State} (h : TimingSound s) (hs : Configured s) (ht : Configured t)
    (hloader : t.loader = s.loader) (hrunning : t.timer.running = s.timer.running) (hround : t.bus.round ≠ .off)
    (hframe : ∀ c, s.loader.config = some c → settingsInRange c = true → WithinFrame c s.timer → WithinFrame c t.timer) :
    TimingSound t := by
  obtain ⟨hrun, -, c, hc, hrange, hwithin⟩ := (timingSound_iff_of_configured hs).mp h
  exact (timingSound_iff_of_configured ht).mpr
    ⟨hrunning.trans hrun, hround, c, hloader ▸ hc, hrange, hframe c hc hrange hwithin⟩

/-- `TimingSound` looks at the loader, the timer, the controller and the station state alone. -/
theorem timingSound_congr {s t : State} (h : TimingSound s) (hloader : t.loader = s.loader) (htimer : t.timer = s.timer)
    (hbus : t.bus = s.bus) (hstation : t.station = s.station) : TimingSound t := by
  simpa only [TimingSound, Configured, hloader, htimer, hbus, hstation] using h

theorem WithinFrame.congr {c : Settings} {t t' : EpochTimer} (h : WithinFrame c t) (hline : t'.line = t.line)
    (hoffset : t'.lastOffset = t.lastOffset) : WithinFrame c t' := by
  rwa [WithinFrame, hline, hoffset]

theorem totalLines_pos {c : Settings} (h : settingsInRange c = true) : 0 < c.totalLines := by
  simp only [settingsInRange, Bool.and_eq_true, decide_eq_true_eq] at h
  omega

theorem settingsInRange_of_valid {read : Option (List Byte)} {c : Settings} (h : validate read = .valid c) :
    settingsInRange c = true := by
  cases read with
  | none => cases h
  | some bytes =>
    simp only [validate] at h
    split at h
    next => cases h
    next =>
    split at h
    next => cases h
    next =>
    split at h
    next => cases h
    next hrange =>
    cases h
    simp only [recordInRange, Bool.not_eq_true', Bool.not_eq_false, Bool.and_eq_true] at hrange
    exact hrange.2

theorem BusController.idleGap_off (b : BusController) : b.idleGap.round = .off ↔ b.round = .off := by
  unfold BusController.idleGap
  repeat' split
  all_goals simp_all

/-- A restart of the recessive count changes nothing else. -/
@[simp] theorem BusController.restartCount_frame (b : BusController) :
    b.restartCount.round = b.round ∧ b.restartCount.belief = b.belief ∧ b.restartCount.schedule = b.schedule ∧
      b.restartCount.chosen = b.chosen ∧ b.restartCount.aborts = b.aborts ∧ b.restartCount.field = b.field ∧
      b.restartCount.slot = b.slot ∧ b.restartCount.driving = b.driving ∧ b.restartCount.drive = b.drive ∧
      b.restartCount.partDriven = b.partDriven := by
  unfold BusController.restartCount
  split <;> simp

/-- The idle gap changes nothing but the round state and the recessive count. -/
@[simp] theorem BusController.idleGap_frame (b : BusController) :
    b.idleGap.belief = b.belief ∧ b.idleGap.schedule = b.schedule ∧ b.idleGap.chosen = b.chosen ∧
      b.idleGap.aborts = b.aborts ∧ b.idleGap.field = b.field ∧ b.idleGap.slot = b.slot ∧
      b.idleGap.driving = b.driving ∧ b.idleGap.drive = b.drive ∧ b.idleGap.partDriven = b.partDriven := by
  unfold BusController.idleGap
  repeat' split
  all_goals simp

theorem timingSound_reset (choices : Nat) (pending : List Instr) :
    TimingSound { State.reset with choices := choices, pending := pending } := by
  refine timingSound_congr (s := State.reset) ?_ rfl rfl rfl rfl
  decide

theorem timingSound_move {c : Instr} {s t : State} (hmove : Move s c t) (h : TimingSound s) : TimingSound t := by
  obtain ⟨hrunning, hconfig, hround, -, hunset, hdrive⟩ := id h
  have following : s.bus.round ≠ .off → Configured s := fun hr => by
    by_contra hc
    exact hr (hround.mpr hc)
  cases hmove with
  | idle => exact h
  | reset => exact timingSound_reset _ _
  | @configured read c hstate hread =>
    have hrange := settingsInRange_of_valid hread
    have hnone : s.loader.config = none := by
      by_contra hne
      exact (hconfig.mp (Option.isSome_iff_ne_none.mpr hne)).1 hstate
    have ht : Configured (s.configured c) := configured_of_station (state := .listening) rfl nofun nofun
    refine (timingSound_iff_of_configured ht).mpr
      ⟨rfl, by simp, c, rfl, hrange, totalLines_pos hrange, ?_⟩
    rw [State.configured_timer, (hunset hnone).2]
    exact fun m hm => by cases hm
  | configFaulted hstate =>
    have hnot : ¬Configured s := fun hc => hc.1 hstate
    simpa [TimingSound, hnot, Configured] using h
  | pixelWord payload => exact timingSound_congr h (by simp) (by simp) (by simp) (by simp)
  | commandWord | answer | accept | withdraw | recordSent => exact timingSound_congr h rfl rfl rfl rfl
  | rejoin payload tag hstate =>
    have hc : Configured s := by
      constructor <;> intro heq <;> rw [heq] at hstate <;> cases hstate
    obtain ⟨-, hoff, -⟩ := (timingSound_iff_of_configured hc).mp h
    exact timingSound_of_configured h hc (configured_of_station (state := .listening) rfl nofun nofun) rfl rfl hoff fun _ _ _ hw => hw
  | countLine hc hrun hline =>
    have hs := hrunning.mp hrun
    obtain ⟨-, hoff, -⟩ := (timingSound_iff_of_configured hs).mp h
    refine timingSound_of_configured h hs (by simpa [Configured] using hs) (by simp) (by simp) (by simpa using hoff) ?_
    intro c' hc' _ hw
    rw [hc] at hc'
    cases hc'
    exact ⟨by simpa using hline, by simpa using hw.2⟩
  | @endFrame c hc hrun hline =>
    have hs := hrunning.mp hrun
    obtain ⟨-, hoff, -⟩ := (timingSound_iff_of_configured hs).mp h
    have htimer : (s.endFrame c).timer.running = s.timer.running ∧ (s.endFrame c).timer.line = 0 ∧
        (s.endFrame c).timer.lastOffset = s.timer.lastOffset := by
      simp only [State.endFrame, State.eitherOrder_frame, State.listen, EpochTimer.frameEnd]
      repeat' split
      all_goals exact ⟨rfl, rfl, rfl⟩
    have ht : Configured (s.endFrame c) := by
      simp only [Configured, State.endFrame, State.eitherOrder_frame, State.listen]
      repeat' split
      · simp
      · exact hs
      · exact hs
    refine timingSound_of_configured h hs ht (by simp) htimer.1 (by simpa using hoff) fun c' hc' hrange hw => ?_
    exact ⟨htimer.2.1 ▸ totalLines_pos hrange, htimer.2.2 ▸ hw.2⟩
  | seekGap hr =>
    have hs := following (by rw [hr]; nofun)
    exact timingSound_of_configured h hs hs rfl rfl (by simp) fun _ _ _ hw => hw
  | idleGap =>
    by_cases hoff : s.bus.round = .off
    · have hgap : s.bus.idleGap = s.bus := by simp [BusController.idleGap, hoff]
      exact timingSound_congr h rfl rfl hgap rfl
    · have hs := following hoff
      exact timingSound_of_configured h hs hs rfl rfl (fun hr => hoff (s.bus.idleGap_off.mp hr)) fun _ _ _ hw => hw
  | dominantLevel =>
    simpa only [TimingSound, Configured, BusController.restartCount_frame] using h
  | driveStartPulse hactive hr =>
    have hs := configured_of_active hactive
    exact timingSound_of_configured h hs hs rfl rfl (by simp [hr]) fun _ _ _ hw => hw
  | followRound hr =>
    have hs := following (by rcases hr with hr | hr | hr <;> rw [hr] <;> nofun)
    exact timingSound_of_configured h hs hs rfl rfl (by simp [BusController.followRound, BusController.leaveRound])
      fun _ _ _ hw => hw
  | fieldFault hrow hr =>
    have hs := following (by rw [hr]; nofun)
    have ht : Configured s.fieldFault := by
      rw [Configured, State.fieldFault_station]
      split
      · exact ⟨by simp, by simp⟩
      · exact hs
    exact timingSound_of_configured h hs ht (by simp) (by simp) (by simp [State.fieldFault, BusController.leaveRound])
      fun _ _ _ hw => by simpa using hw
  | damageSlot hr =>
    have hs := following (by rw [hr]; nofun)
    exact timingSound_of_configured h hs hs rfl rfl (by simp [hr]) fun _ _ _ hw => hw
  | mismatch hsent =>
    have hs : Configured s := hdrive.resolve_right (by rw [hsent]; exact Option.some_ne_none _)
    obtain ⟨-, hoff, -⟩ := (timingSound_iff_of_configured hs).mp h
    exact timingSound_of_configured h hs hs rfl rfl hoff fun _ _ _ hw => hw
  | originField others hr hfield | markSlot others hr hfield =>
    have hs := following (by rw [hr]; nofun)
    exact timingSound_of_configured h hs hs rfl rfl (by simp [hr]) fun _ _ _ hw => hw
  | @mark others c hc hrun hr hfield =>
    have hs := following (by rw [hr]; nofun)
    obtain ⟨hkept, -, -, hoffset, hline⟩ := s.timerMark_timer c (s.busEpoch others)
    refine timingSound_of_configured h hs (configured_takeMark c _ hs) (by simp) (by simpa using hkept) (by simp [hr]) ?_
    intro c' hc' hrange hw
    rw [hc] at hc'
    cases hc'
    refine ⟨?_, ?_⟩
    · simp only [State.fieldAfterMark_timer, State.takeMark_timer]
      rcases hline with hl | hl | hl
      · rw [hl]; exact hw.1
      · rw [hl]; exact totalLines_pos hrange
      · exact hl
    · simp only [State.fieldAfterMark_timer, State.takeMark_timer, hoffset]
      intro m hm
      cases hm
      exact offsetAt_bounds _ hw.1
  | select hr hfield hdrives =>
    have hs := following (by rw [hr]; nofun)
    refine timingSound_of_configured h hs (by simpa [Configured] using hs) (by simp) (by simp) ?_ fun _ _ _ hw => by simpa using hw
    unfold State.select
    split <;> simp [hr]
  | reserve others hr hfield =>
    have hs := following (by rw [hr]; nofun)
    refine timingSound_of_configured h hs hs rfl rfl ?_ fun _ _ _ hw => hw
    simp only [BusController.reserve]
    split <;> simp [BusController.leaveRound]
  | transmit hslot hdrives hrecessive hmessage =>
    simp only [State.drives, Bool.and_eq_true] at hdrives
    have hs := configured_of_active hdrives.1
    obtain ⟨-, hoff, -⟩ := (timingSound_iff_of_configured hs).mp h
    exact timingSound_of_configured h hs hs rfl rfl hoff fun _ _ _ hw => hw
  | endSlot hrow hr =>
    have hs := following (by rw [hr]; nofun)
    refine timingSound_of_configured h hs (configured_slotOutcome hs) (by simp) (by simp) ?_ fun _ _ _ hw => hw.congr (by simp) (by simp)
    simp only [State.endSlot_frame]
    rcases BusController.endSlot_round s.slotOutcome.bus with heq | heq <;> simp [heq, hr]
  | @message r read hr hslot =>
    have hs := following (by rw [hr]; nofun)
    refine timingSound_of_configured h hs (configured_slotOutcome (configured_takeMessage r read hs)) (by simp) (by simp) ?_
      fun _ _ _ hw => hw.congr (by simp) (by simp)
    simp only [State.endSlot_frame]
    rcases BusController.endSlot_round (s.takeMessage r read).slotOutcome.bus with heq | heq <;> simp [heq, hr]

end Sys2Proof.Machine
end

section
/-! The invariant `EpochSound` (R18, R37, R39, R48, R51): the epoch is known exactly while staging is OPEN, in every active state,
and not before the first mark. -/

namespace Sys2Proof.Machine

-- One thread, as for the tests: proofs elaborated side by side would exceed the build's memory limit.
set_option Elab.async false

open Sys2Proof.Safety

/-! ### Operations that keep the epoch where it is -/

theorem StationState.repairing_active {state : StationState} (h : state.repairing = true) : state.active = true := by
  cases state <;> simp_all [StationState.repairing, StationState.active]

/-- A station keeps `EpochSound` where the epoch, the staging flag and the station's standing stay, no generation appears while
staging is CLOSED, and mark pending is set in an active state alone. -/
theorem epochSound_of_kept {s t : State} (h : EpochSound s) (hepoch : t.timer.epoch = s.timer.epoch)
    (hstaging : t.store.staging = s.store.staging)
    (hgenerations : s.store.opened = [] ∧ s.store.closed = none → s.store.staging = false →
      t.store.opened = [] ∧ t.store.closed = none)
    (hactive : t.active = s.active) (hmuted : s.station.state = .muted → t.station.state = .muted)
    (hmark : t.timer.markPending = true → s.timer.markPending = true ∨ t.active = true)
    (hround : Configured t ∨ t.bus.round = .off) : EpochSound t := by
  obtain ⟨hknown, hknown', hunknown, hclosed, hpending, -⟩ := h
  refine ⟨by rw [hepoch, hstaging, hknown], fun ha => ?_, fun ha hm => ?_, fun hst => ?_, fun hp => ?_, hround⟩
  · exact hepoch ▸ hknown' (hactive ▸ ha)
  · exact hepoch ▸ hunknown (hactive ▸ ha) fun hs => hm (hmuted hs)
  · have hst' : s.store.staging = false := hstaging ▸ hst
    exact hgenerations (hclosed hst') hst'
  · rcases hmark hp with hp | ha
    · exact hactive ▸ hpending hp
    · exact ha

/-- `EpochSound` looks at the timer, the store, the station state and the round alone. -/
theorem epochSound_congr {s t : State} (h : EpochSound s) (htimer : t.timer = s.timer) (hstore : t.store = s.store)
    (hstation : t.station = s.station) (hround : t.bus.round = s.bus.round) : EpochSound t := by
  simpa only [EpochSound, Configured, State.active, htimer, hstore, hstation, hround] using h

/-- A station keeps `EpochSound` where only the controller moves, within a round. -/
theorem epochSound_of_bus {s t : State} (h : EpochSound s) (htimer : t.timer = s.timer) (hstore : t.store = s.store)
    (hstation : t.station = s.station) (hround : s.bus.round ≠ .off) : EpochSound t := by
  obtain ⟨hknown, hknown', hunknown, hclosed, hpending, hr⟩ := h
  have hs : Configured s := hr.resolve_right hround
  simp only [EpochSound, Configured, State.active, htimer, hstore, hstation]
  exact ⟨hknown, hknown', hunknown, hclosed, hpending, .inl hs⟩

theorem epochSound_mute {s : State} (cause : MuteCause) (h : EpochSound s) : EpochSound (s.mute cause) := by
  unfold State.mute
  split
  · exact h
  · obtain ⟨hknown, -, -, hclosed, -, -⟩ := h
    exact ⟨hknown, fun ha => (by cases ha), fun _ hm => absurd rfl hm, hclosed, fun hp => (by cases hp),
      .inl (configured_of_station (state := .muted) rfl nofun nofun)⟩

/-- A change between active states keeps `EpochSound`. -/
theorem epochSound_of_active {s t : State} (h : EpochSound s) (hs : s.active = true) (ht : t.active = true)
    (hepoch : t.timer.epoch = s.timer.epoch) (hstaging : t.store.staging = s.store.staging)
    (hgenerations : s.store.opened = [] ∧ s.store.closed = none → s.store.staging = false →
      t.store.opened = [] ∧ t.store.closed = none) :
    EpochSound t :=
  epochSound_of_kept h hepoch hstaging hgenerations (ht.trans hs.symm)
    (fun hm => by rw [State.active, hm] at hs; cases hs) (fun _ => .inr ht) (.inl (configured_of_active ht))

theorem epochSound_outcomeAborted {s : State} (h : EpochSound s) : EpochSound s.outcomeAborted :=
  epochSound_congr h (by simp) (by simp) (by simp) (by simp)

theorem epochSound_slotOutcome {s : State} (h : EpochSound s) : EpochSound s.slotOutcome := by
  have haborted := epochSound_outcomeAborted h
  rcases s.slotOutcome_cases with ⟨-, heq⟩ | ⟨-, -, ⟨-, heq⟩ | ⟨-, heq⟩⟩ <;> rw [heq]
  · exact h
  · rcases s.readbackAbort_cases with ⟨-, heq⟩ | ⟨-, heq⟩ <;> rw [heq]
    · exact epochSound_mute _ (epochSound_congr haborted rfl rfl rfl rfl)
    · exact epochSound_congr haborted rfl rfl rfl rfl
  · exact haborted

theorem epochSound_receiveError {s : State} (h : EpochSound s) : EpochSound s.receiveError := by
  rcases s.receiveError_cases with ⟨hstate, heq⟩ | ⟨-, heq⟩ | ⟨-, heq⟩ | heq <;> rw [heq]
  · exact epochSound_of_active h (by rw [State.active, hstate]; rfl) rfl rfl rfl fun hg _ => hg
  · exact epochSound_congr h rfl rfl rfl rfl
  · exact epochSound_congr h rfl rfl rfl rfl
  · exact h

theorem epochSound_takeBody {s : State} (m : Message) (h : EpochSound s) : EpochSound (s.takeBody m) := by
  have hstaging : (s.takeBody m).store.staging = s.store.staging := by
    rcases s.takeBody_store m with heq | ⟨items, -, heq⟩ | ⟨b, epoch, values, -, heq⟩ <;> rw [heq]
    · unfold WallStore.stage
      split <;> rfl
    · exact (s.store.writeAll_frame values).2.2.2
  have hgenerations : s.store.opened = [] ∧ s.store.closed = none → s.store.staging = false →
      (s.takeBody m).store.opened = [] ∧ (s.takeBody m).store.closed = none := by
    intro hg hst
    rcases s.takeBody_store m with heq | ⟨items, -, heq⟩ | ⟨b, epoch, values, -, heq⟩ <;> rw [heq]
    · exact hg
    · simpa [WallStore.stage, hst] using hg
    · obtain ⟨-, hopened, hclosed, -⟩ := s.store.writeAll_frame values
      rw [hopened, hclosed]
      exact hg
  rcases s.takeBody_station m with heq | ⟨hrepairing, heq⟩
  · obtain ⟨-, -, -, -, -, hround⟩ := id h
    refine epochSound_of_kept h (by simp) hstaging hgenerations (by simp [State.active, heq]) (by simp [heq])
      (fun hp => .inl (by simpa using hp)) ?_
    simpa [Configured, heq] using hround
  · exact epochSound_of_active h (StationState.repairing_active hrepairing) (by rw [State.active, heq]; rfl) (by simp)
      hstaging hgenerations

theorem epochSound_takeMessage {s : State} (r : Rank) (read : Option (List Byte)) (h : EpochSound s) :
    EpochSound (s.takeMessage r read) := by
  have hheader : ∀ (t : State) (m : Message), EpochSound t → EpochSound (t.takeHeader m) := fun t m ht =>
    epochSound_congr ht (by simp) (by simp) (by simp) (by simp)
  rcases s.takeMessage_cases r read with ⟨-, heq⟩ | ⟨m, -, heq⟩ | ⟨-, -, m, -, heq⟩ | ⟨-, -, -, heq⟩ <;> rw [heq]
  · exact h
  · have htaken := epochSound_takeBody m (hheader { s with bus := { s.bus with chosen := none, aborts := 0 } } m
      (epochSound_congr h rfl rfl rfl rfl))
    exact epochSound_congr htaken (by simp) (by simp [State.takeOwn]) (by simp [State.takeOwn]) (by simp)
  · unfold State.takeValid
    split
    · exact epochSound_takeBody m (epochSound_mute _ h)
    · exact epochSound_takeBody m (hheader s m h)
  · exact epochSound_receiveError h

/-! ### The mark (R18, R37, R39) -/

/-- After a mark the staging is OPEN. -/
theorem WallStore.mark_staging (st : WallStore) (c : Settings) (line : Nat) (adopted : Epoch) (offset : Int) :
    (st.mark c line adopted offset).staging = true := by
  have hclose : (st.applyPending.close adopted offset).staging = st.staging := st.applyPending_frame.2.2
  unfold WallStore.mark
  split
  next hopen =>
    split
    · rw [(WallStore.applyPending_frame _).2.2, hclose, hopen]
    · rw [hclose, hopen]
  next => rfl

theorem epochSound_takeMark {s : State} (c : Settings) (adopted : Epoch) (hs : Configured s) :
    EpochSound (s.takeMark c adopted) := by
  obtain ⟨-, hepoch, hpending, -⟩ := s.timerMark_timer c adopted
  have hstaging : (s.takeMark c adopted).store.staging = true := by
    rw [State.takeMark_store, WallStore.mark_staging]
  have hstanding : (s.takeMark c adopted).active = false → (s.takeMark c adopted).station.state = .muted := by
    intro hinactive
    by_cases hactive : s.active = true
    · rw [State.takeMark_of_active hactive] at hinactive
      cases hinactive
    · by_cases hlistening : s.station.state = .listening
      · rw [State.active, State.takeMark_of_listening hlistening] at hinactive
        cases hinactive
      · rw [State.takeMark_of_outside (by simpa using hactive) hlistening]
        rw [State.active] at hactive
        cases hstate : s.station.state <;> simp_all [StationState.active, Configured]
  refine ⟨?_, fun _ => ?_, fun ha hm => absurd (hstanding ha) hm, fun hst => ?_, fun hp => ?_,
    .inl (configured_takeMark c adopted hs)⟩
  · rw [hstaging, State.takeMark_timer, hepoch]
    rfl
  · rw [State.takeMark_timer, hepoch]
    rfl
  · rw [hstaging] at hst
    cases hst
  · rw [State.takeMark_timer, hpending] at hp
    cases hp

/-! ### Line starts and frame ends -/

theorem epochSound_countLine {s : State} (c : Settings) (h : EpochSound s) : EpochSound (s.countLine c) := by
  obtain ⟨-, -, -, -, -, hround⟩ := id h
  have hstore : (s.countLine c).store = s.store ∨ (s.countLine c).store = s.store.applyPending := by
    unfold State.countLine
    dsimp only
    split <;> simp
  obtain ⟨hopened, hclosed, hstaging⟩ := s.store.applyPending_frame
  refine epochSound_of_kept h (by simp) ?_ ?_ (by simp [State.active]) (by simp) (fun hp => .inl (by simpa using hp))
    (by simpa [Configured] using hround)
  · rcases hstore with heq | heq <;> rw [heq]
    exact hstaging
  · intro hg _
    rcases hstore with heq | heq <;> rw [heq]
    · exact hg
    · exact ⟨hopened.trans hg.1, hclosed⟩

/-- The timer of a frame end before the station controller counts: mark pending is set by an active station alone. -/
theorem EpochTimer.frameEnd_frame (t : EpochTimer) (active : Bool) :
    (t.frameEnd active).epoch = t.epoch ∧ (t.frameEnd active).line = t.line ∧
      ((t.frameEnd active).markPending = true → t.markPending = true ∨ active = true) := by
  unfold EpochTimer.frameEnd
  split
  · simp
  · simp
  · exact ⟨rfl, rfl, .inl⟩

theorem epochSound_endFrame {s : State} (c : Settings) (h : EpochSound s) : EpochSound (s.endFrame c) := by
  obtain ⟨-, -, -, hclosed, -, hround⟩ := id h
  have hbase : EpochSound { s.beginLine c 0 with timer := (s.beginLine c 0).timer.frameEnd s.active } := by
    obtain ⟨hepoch, -, hmark⟩ := EpochTimer.frameEnd_frame (s.beginLine c 0).timer s.active
    refine epochSound_of_kept h hepoch rfl (fun hg _ => hg) rfl (fun hm => hm) (fun hp => ?_) (by simpa using hround)
    rcases hmark hp with hp | ha
    · exact .inl hp
    · exact .inr ha
  have hlisten : ∀ t : State, EpochSound t → EpochSound (t.listen c) := by
    intro t ht
    obtain ⟨-, -, hunknown, hclosed, -, hround⟩ := id ht
    unfold State.listen
    split
    next hfounds =>
      simp only [State.founds, Bool.and_eq_true, decide_eq_true_eq] at hfounds
      exact ⟨rfl, fun _ => rfl, fun ha => (by cases ha), fun hst => (by cases hst), fun _ => rfl,
        .inl (configured_of_station (state := .inStep) rfl nofun nofun)⟩
    next =>
    split
    next hlistening =>
      exact epochSound_of_kept ht rfl rfl (fun hg _ => hg) rfl (fun hm => hm) (fun hp => .inl hp) hround
    next => exact ht
  exact epochSound_congr (hlisten _ hbase) (by simp [State.endFrame, State.active]) (by simp [State.endFrame, State.active])
    (by simp [State.endFrame, State.active]) (by simp [State.endFrame])

/-! ### Every command -/

theorem epochSound_reset (choices : Nat) (pending : List Instr) :
    EpochSound { State.reset with choices := choices, pending := pending } := by
  refine epochSound_congr (s := State.reset) ?_ rfl rfl rfl rfl
  decide

theorem epochSound_move {c : Instr} {s t : State} (hmove : Move s c t) (h : EpochSound s) : EpochSound t := by
  obtain ⟨hknown, -, hunknown, hclosed, hpending, hround⟩ := id h
  cases hmove with
  | idle => exact h
  | reset => exact epochSound_reset _ _
  | configured hstate hread =>
    have hinactive : s.active = false := by rw [State.active, hstate]; rfl
    have hnone := hunknown hinactive (by rw [hstate]; nofun)
    refine ⟨hknown, fun ha => (by cases ha), fun _ _ => hnone, hclosed, fun hp => ?_,
      .inl (configured_of_station (state := .listening) rfl nofun nofun)⟩
    rw [hpending hp] at hinactive
    cases hinactive
  | configFaulted hstate =>
    have hinactive : s.active = false := by rw [State.active, hstate]; rfl
    have hoff : s.bus.round = .off := hround.resolve_left fun hc => hc.1 hstate
    exact epochSound_of_kept h rfl rfl (fun hg _ => hg) (by rw [hinactive]; rfl) (by simp [hstate]) (fun hp => .inl hp)
      (.inr hoff)
  | pixelWord payload => exact epochSound_congr h (by simp) (by simp) (by simp) (by simp)
  | rejoin payload tag hstate =>
    exact ⟨rfl, fun ha => (by cases ha), fun _ _ => rfl, fun _ => ⟨rfl, rfl⟩, fun hp => (by cases hp),
      .inl (configured_of_station (state := .listening) rfl nofun nofun)⟩
  | countLine hconfig hrunning hline => exact epochSound_countLine _ h
  | endFrame hconfig hrunning hline => exact epochSound_endFrame _ h
  | seekGap hr | damageSlot hr | originField others hr hfield | markSlot others hr hfield | reserve others hr hfield =>
    exact epochSound_of_bus h rfl rfl rfl (by simp [hr])
  | followRound hr => exact epochSound_of_bus h rfl rfl rfl (by rcases hr with hr | hr | hr <;> simp [hr])
  | idleGap =>
    by_cases hoff : s.bus.round = .off
    · exact epochSound_congr h rfl rfl rfl (by simp [BusController.idleGap, hoff])
    · exact epochSound_of_bus h rfl rfl rfl hoff
  | dominantLevel => exact epochSound_congr h rfl rfl rfl (by simp)
  | fieldFault hrow hr =>
    have hs : Configured s := hround.resolve_right (by rw [hr]; nofun)
    by_cases hstate : s.station.state = .inStep
    · exact epochSound_of_active h (by rw [State.active, hstate]; rfl)
        (by rw [State.active, State.fieldFault_station, if_pos hstate]; rfl) (by simp) (by simp)
        (fun hg _ => by simpa using hg)
    · exact epochSound_of_bus h (by simp) (by simp) (by rw [State.fieldFault_station, if_neg hstate]) (by simp [hr])
  | mark others hconfig hrunning hr hfield =>
    have hs : Configured s := hround.resolve_right (by rw [hr]; nofun)
    exact epochSound_congr (epochSound_takeMark _ _ hs) rfl rfl rfl rfl
  | select hr hfield hdrives => exact epochSound_of_bus h (by simp) (by simp) (by simp) (by simp [hr])
  | endSlot hrow hr =>
    have hs : Configured s := hround.resolve_right (by rw [hr]; nofun)
    exact epochSound_of_bus (epochSound_slotOutcome h) (by simp) (by simp) (by simp) (by simp [hr])
  | @message r read hr hslot =>
    exact epochSound_of_bus (epochSound_slotOutcome (epochSound_takeMessage r read h)) (by simp) (by simp) (by simp)
      (by simp [hr])
  | commandWord | answer | accept | withdraw | recordSent | driveStartPulse | transmit | mismatch =>
    exact epochSound_congr h rfl rfl rfl rfl

/-- Settles O57: each of the two invariants is kept by every move, by itself. -/
theorem stepsKeepTheTimingAndTheEpoch : Obligations.StepsKeepTheTimingAndTheEpoch := fun _ _ hstep =>
  ⟨step_keeps (Inv := TimingSound) (fun _ _ h => h) timingSound_move hstep,
    step_keeps (Inv := EpochSound) (fun _ _ h => h) epochSound_move hstep⟩

end Sys2Proof.Machine
end

section
/-! The invariant `BusSound` (spec/04_the_wall_bus.md; R49, R51, R57, R59, R64, R72): the chosen message, the batch in flight, the
schedule and the abort count in their relations. -/

namespace Sys2Proof.Machine

-- One thread, as for the tests: proofs elaborated side by side would exceed the build's memory limit.
set_option Elab.async false

open Sys2Proof.Safety

/-! ### The schedule of a reservation field (R56) -/

theorem mem_scheduleOf_iff (origin : Rank) (field : BitVec 16) (r : Rank) :
    r ∈ scheduleOf origin field ↔ field.getLsbD r.toNat = false := by
  have hrank : r ∈ allRanks.map (origin + ·) :=
    List.mem_map.mpr ⟨r - origin, mem_allRanks _, by simp [add_sub_cancel]⟩
  simp only [scheduleOf, List.mem_filter, hrank, true_and, Bool.not_eq_true']

/-- The own bit is dominant in the field of a station that has chosen a message, so its rank is scheduled. -/
theorem own_mem_scheduleOf {s : State} {r : Rank} (hrank : s.rank? = some r) (hdrives : s.drives = true)
    (hchosen : s.bus.chosen ≠ none) (origin : Rank) (others : BitVec 16) :
    r ∈ scheduleOf origin (others &&& s.reservationDrive) := by
  have hbit : s.reservationDrive = ~~~(1#16 <<< r.toNat) := by
    simp [State.reservationDrive, hrank, hdrives, Option.isSome_iff_ne_none.mpr hchosen]
  have hr := r.isLt
  rw [mem_scheduleOf_iff, hbit]
  simp [hr]

/-! ### The relations of `BusSound` but for the message in transmission -/

/-- `BusSound` without what it says of the message in transmission, which a slot's end drops. -/
structure BusCore (s : State) : Prop where
  chosen : s.bus.chosen ≠ none → s.active = true ∧ s.bus.driving = true ∧
    (s.bus.round = .fields ∧ s.bus.field = .selected ∨ s.bus.round = .data ∧ SlotToCome s)
  flight : s.command.inFlight ≠ 0 ↔ s.bus.chosen = some .update
  mark : s.command.withdrawMark = true → s.command.inFlight ≠ 0
  schedule : s.bus.round = .data ∧ s.bus.slot < s.bus.schedule.length ∨
    s.bus.round ≠ .data ∧ s.bus.slot = 0 ∧ s.bus.schedule = []
  driving : s.bus.driving = true → s.active = true
  part : s.bus.partDriven ≠ BitVec.allOnes 16 → s.bus.driving = false ∧ s.bus.round = .fields
  rank : s.active = true → s.rank?.isSome = true
  aborts : s.bus.aborts ≤ Config.abortLimit
  limit : s.bus.aborts = Config.abortLimit → s.station.state = .muted
  round : Configured s ∨ s.bus.round = .off

theorem busSound_iff (s : State) :
    BusSound s ↔ BusCore s ∧ ∀ m ∈ s.bus.drive.transmitting, s.bus.chosen = some m.body.kind :=
  ⟨fun ⟨h1, h2, h3, h4, h5, h6, h7, h8, h9, h10, h11⟩ => ⟨⟨h1, h2, h3, h4, h5, h6, h7, h9, h10, h11⟩, h8⟩,
    fun ⟨⟨h1, h2, h3, h4, h5, h6, h7, h9, h10, h11⟩, h8⟩ => ⟨h1, h2, h3, h4, h5, h6, h7, h8, h9, h10, h11⟩⟩

/-- The controller's place in the round, its chosen message and its count are those of another. -/
def BusController.SamePlace (b b' : BusController) : Prop :=
  b.chosen = b'.chosen ∧ b.driving = b'.driving ∧ b.round = b'.round ∧ b.field = b'.field ∧ b.slot = b'.slot ∧
    b.schedule = b'.schedule ∧ b.partDriven = b'.partDriven ∧ b.aborts = b'.aborts

theorem BusController.SamePlace.refl (b : BusController) : b.SamePlace b := ⟨rfl, rfl, rfl, rfl, rfl, rfl, rfl, rfl⟩

/-- What a batch is: the count in flight and the withdraw mark. -/
def CommandUnit.SameBatch (u u' : CommandUnit) : Prop := u.inFlight = u'.inFlight ∧ u.withdrawMark = u'.withdrawMark

namespace BusCore

variable {s t : State}

/-- The relations look at nothing but the place in the round, the batch, the loader and the station state. -/
theorem congr (h : BusCore s) (hbus : t.bus.SamePlace s.bus) (hbatch : t.command.SameBatch s.command)
    (hloader : t.loader = s.loader) (hstation : t.station.state = s.station.state) : BusCore t := by
  obtain ⟨hchosen, hdriving, hround, hfield, hslot, hschedule, hpart, haborts⟩ := hbus
  obtain ⟨hflight, hmark⟩ := hbatch
  obtain ⟨h1, h2, h3, h4, h5, h6, h7, h8, h9, h10⟩ := h
  constructor <;>
    simp only [SlotToCome, Configured, State.active, State.rank?, hchosen, hdriving, hround, hfield, hslot, hschedule,
      hpart, haborts, hflight, hmark, hloader, hstation] <;>
    assumption

/-- A change of station state that leaves the station active, or that finds it not muted and makes it so, keeps them. -/
theorem of_active (h : BusCore s) (hbus : t.bus.SamePlace s.bus) (hbatch : t.command.SameBatch s.command)
    (hloader : t.loader = s.loader) (hs : s.station.state ≠ .muted) (ht : t.active = true)
    (hrank : s.rank?.isSome = true) : BusCore t := by
  obtain ⟨hchosen, hdriving, hround, hfield, hslot, hschedule, hpart, haborts⟩ := hbus
  obtain ⟨hflight, hmark⟩ := hbatch
  have hrank' : t.rank? = s.rank? := by simp only [State.rank?, hloader]
  refine ⟨fun hc => ?_, ?_, ?_, ?_, fun _ => ht, ?_, fun _ => hrank' ▸ hrank, ?_, fun ha => ?_,
    .inl (configured_of_active ht)⟩
  · obtain ⟨-, hd, hplace⟩ := h.chosen (hchosen ▸ hc)
    refine ⟨ht, hdriving ▸ hd, ?_⟩
    simpa only [SlotToCome, hround, hfield, hslot, hschedule, hrank'] using hplace
  · simpa only [hflight, hchosen] using h.flight
  · simpa only [hflight, hmark] using h.mark
  · simpa only [hround, hslot, hschedule] using h.schedule
  · simpa only [hpart, hdriving, hround] using h.part
  · simpa only [haborts] using h.aborts
  · exact absurd (h.limit (haborts ▸ ha)) hs

theorem not_muted_of_active (h : s.active = true) : s.station.state ≠ .muted := fun hm => by
  rw [State.active, hm] at h
  cases h

/-- Outside the fields after the send selection and the data phase nothing is chosen. -/
theorem chosen_eq_none (h : BusCore s) (hplace : ¬(s.bus.round = .fields ∧ s.bus.field = .selected))
    (hround : s.bus.round ≠ .data) : s.bus.chosen = none := by
  by_contra hc
  obtain ⟨-, -, hfields | hdata⟩ := h.chosen hc
  · exact hplace hfields
  · exact hround hdata.1

theorem inFlight_eq_zero (h : BusCore s) (hchosen : s.bus.chosen ≠ some .update) : s.command.inFlight = 0 := by
  by_contra hne
  exact hchosen (h.flight.mp hne)

theorem withdrawMark_eq_false (h : BusCore s) (hchosen : s.bus.chosen ≠ some .update) :
    s.command.withdrawMark = false := by
  cases hm : s.command.withdrawMark with
  | false => rfl
  | true => exact absurd (h.inFlight_eq_zero hchosen) (h.mark hm)

/-- A station that holds no chosen message and no batch, at a place in or out of a round. -/
theorem of_unchosen (hchosen : t.bus.chosen = none) (hflight : t.command.inFlight = 0)
    (hmark : t.command.withdrawMark = false)
    (hschedule : t.bus.round = .data ∧ t.bus.slot < t.bus.schedule.length ∨
      t.bus.round ≠ .data ∧ t.bus.slot = 0 ∧ t.bus.schedule = [])
    (hdriving : t.bus.driving = true → t.active = true)
    (hpart : t.bus.partDriven ≠ BitVec.allOnes 16 → t.bus.driving = false ∧ t.bus.round = .fields)
    (hrank : t.active = true → t.rank?.isSome = true) (haborts : t.bus.aborts ≤ Config.abortLimit)
    (hlimit : t.bus.aborts = Config.abortLimit → t.station.state = .muted)
    (hround : Configured t ∨ t.bus.round = .off) : BusCore t :=
  ⟨fun hc => absurd hchosen hc, by simp [hflight, hchosen], by simp [hmark], hschedule, hdriving, hpart, hrank, haborts,
    hlimit, hround⟩

theorem mute (cause : MuteCause) (h : BusCore s) : BusCore (s.mute cause) := by
  unfold State.mute
  split
  · exact h
  · refine of_unchosen rfl rfl rfl h.schedule (fun hd => (by cases hd)) (fun hp => ⟨rfl, (h.part hp).2⟩)
      (fun ha => (by cases ha)) h.aborts (fun _ => rfl)
      (.inl (configured_of_station (state := .muted) rfl nofun nofun))

theorem batchAborted_inFlight (u : CommandUnit) :
    u.batchAborted.1.inFlight = 0 ∧ u.batchAborted.1.withdrawMark = false := by
  unfold CommandUnit.batchAborted
  split <;> exact ⟨rfl, rfl⟩

/-- After the outcome ABORTED nothing is chosen and nothing in flight. -/
theorem outcomeAborted (h : BusCore s) :
    BusCore s.outcomeAborted ∧ s.outcomeAborted.bus.chosen = none ∧ s.outcomeAborted.bus.aborts = s.bus.aborts := by
  refine ⟨?_, by simp, by simp⟩
  have hbatch : s.outcomeAborted.command.inFlight = 0 ∧ s.outcomeAborted.command.withdrawMark = false := by
    rcases s.outcomeAborted_cases with ⟨-, heq⟩ | ⟨hc, heq⟩ <;> rw [heq]
    · exact batchAborted_inFlight _
    · exact ⟨h.inFlight_eq_zero hc, h.withdrawMark_eq_false hc⟩
  refine of_unchosen (by simp) hbatch.1 hbatch.2 ?_ ?_ ?_ ?_ ?_ ?_ ?_
  · simpa using h.schedule
  · simpa [State.active] using h.driving
  · simpa using h.part
  · simpa [State.active, State.rank?] using h.rank
  · simpa using h.aborts
  · simpa using h.limit
  · simpa [Configured] using h.round

theorem receiveError (h : BusCore s) : BusCore s.receiveError := by
  rcases s.receiveError_cases with ⟨hstate, heq⟩ | ⟨-, heq⟩ | ⟨-, heq⟩ | heq <;> rw [heq]
  · have hactive : s.active = true := by rw [State.active, hstate]; rfl
    exact h.of_active (.refl _) ⟨rfl, rfl⟩ rfl (by rw [hstate]; nofun) rfl (h.rank hactive)
  · exact h.congr (.refl _) ⟨rfl, rfl⟩ rfl rfl
  · exact h.congr ⟨rfl, rfl, rfl, rfl, rfl, rfl, rfl, rfl⟩ ⟨rfl, rfl⟩ rfl rfl
  · exact h

theorem takeBody (m : Message) (h : BusCore s) : BusCore (s.takeBody m) := by
  have hbus : (s.takeBody m).bus = s.bus := by simp
  have hcommand : (s.takeBody m).command = s.command := by simp
  rcases s.takeBody_station m with heq | ⟨hrepairing, heq⟩
  · exact h.congr (hbus ▸ .refl _) (hcommand ▸ ⟨rfl, rfl⟩) (by simp) (by rw [heq])
  · have hactive : s.active = true := StationState.repairing_active hrepairing
    exact h.of_active (hbus ▸ .refl _) (hcommand ▸ ⟨rfl, rfl⟩) (by simp) (not_muted_of_active hactive)
      (by rw [State.active, heq]; rfl) (h.rank hactive)

theorem takeHeader (m : Message) (h : BusCore s) : BusCore (s.takeHeader m) := by
  have hbus : (s.takeHeader m).bus = s.bus := by simp
  have hcommand : (s.takeHeader m).command = s.command := by simp
  exact h.congr (hbus ▸ .refl _) (hcommand ▸ ⟨rfl, rfl⟩) (by simp) (by simp)

/-- The own message taken clean: nothing is chosen and nothing in flight after it. -/
theorem takeOwn {m : Message} (h : BusCore s) (hsent : s.bus.chosen = some m.body.kind) : BusCore (s.takeOwn m) := by
  have hactive := (h.chosen (by rw [hsent]; simp)).1
  have hbatch : (s.takeOwn m).command.inFlight = 0 ∧ (s.takeOwn m).command.withdrawMark = false := by
    cases hkind : m.body.kind with
    | update => simp [State.takeOwn, hkind, State.outcomeClean, CommandUnit.batchClean]
    | audit | resyncRequest | resyncDone | block =>
      have hne : s.bus.chosen ≠ some .update := by simp [hsent, hkind]
      rcases State.outcomeClean_command ((State.takeHeader { s with bus := { s.bus with chosen := none, aborts := 0 } } m).takeBody m)
        m.body.kind with heq | heq
      · simp [State.takeOwn, heq, CommandUnit.batchClean]
      · simp [State.takeOwn, heq, h.inFlight_eq_zero hne, h.withdrawMark_eq_false hne]
  have hactive' : (s.takeOwn m).active = true := by
    simp only [State.takeOwn, State.active, State.outcomeClean_frame]
    rcases State.takeBody_station (State.takeHeader { s with bus := { s.bus with chosen := none, aborts := 0 } } m) m
      with heq | ⟨-, heq⟩ <;> rw [heq]
    · simpa [State.active] using hactive
    · rfl
  refine of_unchosen (by simp) hbatch.1 hbatch.2 ?_ (fun _ => hactive') ?_ ?_ ?_ ?_ (.inl (configured_of_active hactive'))
  · simpa using h.schedule
  · simpa using h.part
  · simpa [State.rank?] using fun _ => h.rank hactive
  · simp
  · intro ha
    simp [Config.abortLimit] at ha

theorem takeMessage (r : Rank) (read : Option (List Byte)) (h : BusCore s)
    (hsent : ∀ m ∈ s.bus.drive.transmitting, s.bus.chosen = some m.body.kind) : BusCore (s.takeMessage r read) := by
  rcases s.takeMessage_cases r read with ⟨-, heq⟩ | ⟨m, hm, heq⟩ | ⟨-, -, m, -, heq⟩ | ⟨-, -, -, heq⟩ <;> rw [heq]
  · exact h
  · exact h.takeOwn (hsent m hm)
  · unfold State.takeValid
    split
    · exact (h.mute _).takeBody m
    · exact (h.takeHeader m).takeBody m
  · exact h.receiveError

/-- A count of aborts at an active station that holds nothing: below the limit it stays as it is, at the limit it is
muted. -/
theorem countAbort {n : Nat} (h : BusCore s) (hactive : s.active = true) (hn : n ≤ Config.abortLimit)
    (cause : MuteCause) : BusCore (State.mute { s with bus := { s.bus with aborts := n } } cause) := by
  unfold State.mute
  rw [if_neg (not_muted_of_active hactive)]
  exact of_unchosen rfl rfl rfl h.schedule (fun hd => (by cases hd)) (fun hp => ⟨rfl, (h.part hp).2⟩)
    (fun ha => (by cases ha)) hn (fun _ => rfl) (.inl (configured_of_station (state := .muted) rfl nofun nofun))

theorem readbackAbort (h : BusCore s) (hactive : s.active = true) :
    BusCore s.readbackAbort ∧ s.readbackAbort.bus.chosen = none := by
  obtain ⟨haborted, hnone, haborts⟩ := h.outcomeAborted
  have hactive' : s.outcomeAborted.active = true := by simpa [State.active] using hactive
  have hbelow : s.outcomeAborted.bus.aborts < Config.abortLimit :=
    Nat.lt_of_le_of_ne haborted.aborts fun ha => not_muted_of_active hactive' (haborted.limit ha)
  rcases s.readbackAbort_cases with ⟨-, heq⟩ | ⟨hcount, heq⟩ <;> rw [heq]
  · refine ⟨haborted.countAbort hactive' hbelow _, ?_⟩
    unfold State.mute
    rw [if_neg (not_muted_of_active hactive')]
    rfl
  · exact ⟨⟨haborted.chosen, haborted.flight, haborted.mark, haborted.schedule, haborted.driving, haborted.part,
      haborted.rank, hcount.le, fun ha => absurd ha hcount.ne, haborted.round⟩, hnone⟩

/-- The end of the own slot leaves nothing chosen; a station that still holds a message has its slot to come. -/
theorem slotOutcome (h : BusCore s) :
    BusCore s.slotOutcome ∧ (s.slotOutcome.bus.chosen = none ∨ s.slotOutcome.ownSlot = false) := by
  obtain ⟨haborted, hnone, -⟩ := h.outcomeAborted
  rcases s.slotOutcome_cases with ⟨hwhy, heq⟩ | ⟨-, hchosen, ⟨-, heq⟩ | ⟨-, heq⟩⟩ <;> rw [heq]
  · exact ⟨h, hwhy.symm⟩
  · obtain ⟨hcore, hnone⟩ := h.readbackAbort (h.chosen hchosen).1
    exact ⟨hcore, .inl hnone⟩
  · exact ⟨haborted, .inl hnone⟩

/-- A rank that has its slot to come and not the one that ends has it to come after that. -/
theorem slotToCome_next (hround : s.bus.round = .data) (hslot : SlotToCome s) (hown : s.ownSlot = false) :
    ∃ r ∈ s.rank?, r ∈ s.bus.schedule.drop (s.bus.slot + 1) := by
  obtain ⟨r, hr, hmem⟩ := hslot
  refine ⟨r, hr, ?_⟩
  cases hdrop : s.bus.schedule.drop s.bus.slot with
  | nil => simp [hdrop] at hmem
  | cons x rest =>
    have hx : s.bus.schedule[s.bus.slot]? = some x := by
      rw [← List.head?_drop, hdrop]
      rfl
    have hrest : s.bus.schedule.drop (s.bus.slot + 1) = rest := by
      rw [← List.tail_drop, hdrop]
      rfl
    rw [hdrop] at hmem
    rcases List.mem_cons.mp hmem with rfl | hmem
    · simp [State.ownSlot, State.slotRank, hround, hx, Option.mem_def.mp hr] at hown
    · rwa [hrest]

theorem endSlot (h : BusCore s) (hround : s.bus.round = .data)
    (hfree : s.bus.chosen = none ∨ s.ownSlot = false) : BusSound { s with bus := s.bus.endSlot } := by
  have hconfigured : Configured s := h.round.resolve_right (by simp [hround])
  have hpart : s.bus.partDriven = recessiveField 16 := by
    by_contra hp
    rw [(h.part hp).2] at hround
    cases hround
  refine (busSound_iff _).mpr ⟨?_, by simp [BusController.endSlot_drive, Drive.transmitting]⟩
  rcases s.bus.endSlot_cases with ⟨hnext, heq⟩ | ⟨hlast, belief, heq, -⟩ <;> simp only [heq]
  · refine ⟨fun hc => ?_, h.flight, h.mark, .inl ⟨hround, hnext⟩, h.driving, fun hp => absurd hpart hp, h.rank, h.aborts,
      h.limit, .inl hconfigured⟩
    obtain ⟨hactive, hdriving, hplace⟩ := h.chosen hc
    have hslot : SlotToCome s := (hplace.resolve_left (by simp [hround])).2
    exact ⟨hactive, hdriving, .inr ⟨hround, slotToCome_next hround hslot (hfree.resolve_left hc)⟩⟩
  · have hnone : s.bus.chosen = none := by
      by_contra hc
      obtain ⟨-, -, hplace⟩ := h.chosen hc
      obtain ⟨r, -, hmem⟩ := slotToCome_next hround (hplace.resolve_left (by simp [hround])).2 (hfree.resolve_left hc)
      rw [List.drop_eq_nil_of_le hlast] at hmem
      cases hmem
    have hflight := h.inFlight_eq_zero (by rw [hnone]; simp)
    have hmark := h.withdrawMark_eq_false (by rw [hnone]; simp)
    exact of_unchosen hnone hflight hmark (.inr ⟨by simp [BusController.leaveRound], rfl, rfl⟩) (fun hd => (by cases hd))
      (fun hp => absurd rfl hp) h.rank h.aborts h.limit (.inl hconfigured)

end BusCore

/-! ### Every command -/

theorem busSound_of_recessive {t : State} (h : BusCore t) (hdrive : t.bus.drive.transmitting = none) : BusSound t :=
  (busSound_iff t).mpr ⟨h, by simp [hdrive]⟩

theorem busSound_congr {s t : State} (h : BusSound s) (hbus : t.bus = s.bus)
    (hbatch : t.command.SameBatch s.command) (hloader : t.loader = s.loader) (hstation : t.station.state = s.station.state) :
    BusSound t := by
  obtain ⟨hcore, hsent⟩ := (busSound_iff s).mp h
  exact (busSound_iff t).mpr ⟨hcore.congr (hbus ▸ .refl _) hbatch hloader hstation, hbus ▸ hsent⟩

theorem Drive.silenced_transmitting (d : Drive) : d.silenced.transmitting = none := by cases d <;> rfl

theorem busSound_reset (choices : Nat) (pending : List Instr) :
    BusSound { State.reset with choices := choices, pending := pending } := by
  refine busSound_congr (s := State.reset) ?_ rfl ⟨rfl, rfl⟩ rfl rfl
  decide

/-- Before configuration nothing is chosen and no round followed; what the loader's end does keeps it so. -/
theorem busSound_loaded {s t : State} (h : BusSound s) (hstate : s.station.state = .configuring)
    (hbus : t.bus.round = .seeking ∧ Configured t ∨ t.bus.round = .off)
    (hrest : t.bus = { s.bus with round := t.bus.round }) (hcommand : t.command = s.command) (ht : t.active = false) :
    BusSound t := by
  obtain ⟨hcore, hsent⟩ := (busSound_iff s).mp h
  have hinactive : s.active = false := by rw [State.active, hstate]; rfl
  have hoff : s.bus.round = .off := hcore.round.resolve_left fun hc => hc.1 hstate
  have hnone : s.bus.chosen = none := hcore.chosen_eq_none (by simp [hoff]) (by simp [hoff])
  have hdriving : s.bus.driving = false := by
    cases hd : s.bus.driving with
    | false => rfl
    | true => rw [hcore.driving hd] at hinactive; cases hinactive
  obtain ⟨hslot, hschedule⟩ : s.bus.slot = 0 ∧ s.bus.schedule = [] := by
    rcases hcore.schedule with hd | hd
    · simp [hoff] at hd
    · exact hd.2
  have hpart : s.bus.partDriven = BitVec.allOnes 16 := by
    by_contra hp
    simpa [hoff] using (hcore.part hp).2
  refine (busSound_iff t).mpr ⟨BusCore.of_unchosen ?_ ?_ ?_ (.inr ?_) ?_ ?_ ?_ ?_ ?_ ?_, ?_⟩
  · rw [hrest, hnone]
  · rw [hcommand, hcore.inFlight_eq_zero (by simp [hnone])]
  · rw [hcommand, hcore.withdrawMark_eq_false (by simp [hnone])]
  · refine ⟨?_, by rw [hrest, hslot], by rw [hrest, hschedule]⟩
    rcases hbus with ⟨hr, -⟩ | hr <;> simp [hr]
  · rw [hrest]
    simp [hdriving]
  · rw [hrest]
    simp [hpart]
  · simp [ht]
  · rw [hrest]
    exact hcore.aborts
  · intro ha
    rw [hrest] at ha
    rw [hcore.limit ha] at hstate
    cases hstate
  · exact hbus.imp And.right id
  · rw [hrest]
    exact hsent

theorem busSound_rejoin {s : State} (tag : Tag) (h : BusSound s) : BusSound (s.afterCommand.rejoin tag) := by
  obtain ⟨hcore, -⟩ := (busSound_iff s).mp h
  refine busSound_of_recessive (BusCore.of_unchosen rfl rfl rfl hcore.schedule (fun hd => (by cases hd))
    (fun hp => ⟨rfl, ?_⟩) (fun ha => (by cases ha)) (Nat.zero_le _) (fun ha => (by cases ha))
    (.inl (configured_of_station (state := .listening) rfl nofun nofun))) (Drive.silenced_transmitting _)
  change s.drivenSoFar ≠ _ at hp
  unfold State.drivenSoFar at hp
  dsimp only at hp
  split at hp
  next hfields =>
    simp only [State.inFields, Bool.and_eq_true, decide_eq_true_eq] at hfields
    exact hfields.2
  next => exact (hcore.part hp).2

/-- A natural frame end changes the station state by founding alone (R129). -/
theorem State.endFrame_station (s : State) (c : Settings) :
    (s.endFrame c).station.state = s.station.state ∨
      s.station.state = .listening ∧ (s.endFrame c).station.state = .inStep := by
  have hlisten : ∀ t : State, (t.listen c).station.state = t.station.state ∨
      t.station.state = .listening ∧ (t.listen c).station.state = .inStep := by
    intro t
    unfold State.listen
    split
    next hfounds =>
      simp only [State.founds, Bool.and_eq_true, decide_eq_true_eq] at hfounds
      exact .inr ⟨hfounds.1, rfl⟩
    next => split <;> exact .inl rfl
  simpa [State.endFrame] using
    hlisten { s.beginLine c 0 with timer := (s.beginLine c 0).timer.frameEnd (s.beginLine c 0).active }

theorem rank_isSome_of_config {s : State} {c : Settings} (h : s.loader.config = some c) : s.rank?.isSome = true := by
  simp [State.rank?, h]

theorem busSound_endFrame {s : State} {c : Settings} (hconfig : s.loader.config = some c) (h : BusSound s) :
    BusSound (s.endFrame c) := by
  rcases s.endFrame_station c with hstate | ⟨hbefore, hstate⟩
  · exact busSound_congr h (by simp) (by simp [CommandUnit.SameBatch]) (by simp) hstate
  · obtain ⟨hcore, hsent⟩ := (busSound_iff s).mp h
    refine (busSound_iff _).mpr ⟨hcore.of_active (by simp [BusController.SamePlace]) (by simp [CommandUnit.SameBatch])
      (by simp) (by rw [hbefore]; nofun) (by rw [State.active, hstate]; rfl) (rank_isSome_of_config hconfig), by
      simpa using hsent⟩

theorem busSound_takeMark {s : State} {c : Settings} (adopted : Epoch) (hconfig : s.loader.config = some c)
    (h : BusSound s) : BusSound (s.takeMark c adopted) := by
  obtain ⟨hcore, hsent⟩ := (busSound_iff s).mp h
  have hactive : s.station.state ≠ .muted → (s.takeMark c adopted).active = true →
      BusSound (s.takeMark c adopted) := fun hs ht =>
    (busSound_iff _).mpr ⟨hcore.of_active (by simp [BusController.SamePlace]) (by simp [CommandUnit.SameBatch])
      (by simp) hs ht (rank_isSome_of_config hconfig), by simpa using hsent⟩
  by_cases ha : s.active = true
  · exact hactive (BusCore.not_muted_of_active ha) (State.takeMark_of_active ha c adopted)
  by_cases hl : s.station.state = .listening
  · exact hactive (by rw [hl]; nofun) (by rw [State.active, State.takeMark_of_listening hl]; rfl)
  · exact busSound_congr h (by simp) (by simp [CommandUnit.SameBatch]) (by simp)
      (by rw [State.takeMark_of_outside (by simpa using ha) hl])

/-- A controller that moves on outside the data phase, before the send selection: nothing is chosen before or after. -/
theorem busSound_outside {s : State} (h : BusSound s) (hplace : ¬(s.bus.round = .fields ∧ s.bus.field = .selected))
    (hround : s.bus.round ≠ .data) (hoff : s.bus.round ≠ .off) {b : BusController} (hchosen : b.chosen = s.bus.chosen)
    (hschedule : b.round ≠ .data ∧ (b.slot = s.bus.slot ∧ b.schedule = s.bus.schedule ∨ b.slot = 0 ∧ b.schedule = []))
    (hdriving : b.driving = true → s.active = true)
    (hpart : b.partDriven = BitVec.allOnes 16 ∨
      b.partDriven = s.bus.partDriven ∧ b.driving = s.bus.driving ∧ (s.bus.round = .fields → b.round = .fields))
    (haborts : b.aborts = s.bus.aborts) (hdrive : s.bus.drive.transmitting = none → b.drive.transmitting = none) :
    BusSound { s with bus := b } := by
  obtain ⟨hcore, hsent⟩ := (busSound_iff s).mp h
  have hnone := hcore.chosen_eq_none hplace hround
  have hsilent : s.bus.drive.transmitting = none := by
    cases htransmitting : s.bus.drive.transmitting with
    | none => rfl
    | some m => simp [hnone] at hsent; exact absurd htransmitting (hsent m)
  obtain ⟨hslot, hempty⟩ := (hcore.schedule.resolve_left fun hd => hround hd.1).2
  refine busSound_of_recessive (BusCore.of_unchosen (hchosen.trans hnone) (hcore.inFlight_eq_zero (by simp [hnone]))
    (hcore.withdrawMark_eq_false (by simp [hnone])) (.inr ⟨hschedule.1, ?_⟩) hdriving (fun hp => ?_) hcore.rank ?_ ?_
    (.inl (hcore.round.resolve_right hoff))) (hdrive hsilent)
  · rcases hschedule.2 with ⟨h1, h2⟩ | h'
    · exact ⟨h1.trans hslot, h2.trans hempty⟩
    · exact h'
  · rcases hpart with hp' | ⟨hp', hd, hr⟩
    · exact absurd hp' hp
    · obtain ⟨hd', hr'⟩ := hcore.part (hp' ▸ hp)
      exact ⟨hd.trans hd', hr hr'⟩
  · exact haborts.trans_le hcore.aborts
  · exact fun ha => hcore.limit (haborts ▸ ha)

/-- The controller after a field fault: out of the round, with nothing chosen and its count kept (R68). -/
theorem State.fieldFault_bus (s : State) :
    ∃ suspect, s.fieldFault.bus = { s.bus.leaveRound .seeking with chosen := none, suspect := suspect } := by
  unfold State.fieldFault State.receiveErrorAndAbort
  dsimp only
  split
  · have hbus := State.receiveError_bus { s with command := s.command.batchAborted.1, bus := { s.bus with chosen := none } }
    exact ⟨_, (congrArg (BusController.leaveRound · .seeking) ((State.eitherOrder_frame ..).2.2.1.trans hbus)).trans rfl⟩
  · have hbus : s.receiveError.outcomeAborted.bus =
        { s.bus with chosen := none, suspect := s.receiveError.bus.suspect } := by
      rw [s.receiveError.outcomeAborted_frame.2.2.2.2.2.2.2.2.2, State.receiveError_bus]
    exact ⟨_, (congrArg (BusController.leaveRound · .seeking) hbus).trans rfl⟩

theorem configured_fieldFault {s : State} (h : Configured s) : Configured s.fieldFault := by
  rw [Configured, State.fieldFault_station]
  split
  · exact ⟨nofun, nofun⟩
  · exact h

theorem busSound_fieldFault {s : State} (h : BusSound s) (hround : s.bus.round = .fields) : BusSound s.fieldFault := by
  obtain ⟨hcore, -⟩ := (busSound_iff s).mp h
  obtain ⟨suspect, hbus⟩ := s.fieldFault_bus
  have hbatch : s.fieldFault.command.inFlight = 0 ∧ s.fieldFault.command.withdrawMark = false := by
    by_cases hupdate : s.bus.chosen = some .update
    · simpa [State.fieldFault, State.receiveErrorAndAbort, hupdate] using BusCore.batchAborted_inFlight s.command
    · have hcommand : s.fieldFault.command = s.command := by
        rcases s.receiveError.outcomeAborted_cases with ⟨hchosen, -⟩ | ⟨-, heq⟩
        · rw [State.receiveError_bus] at hchosen
          exact absurd hchosen hupdate
        · simp [State.fieldFault, State.receiveErrorAndAbort, heq]
      rw [hcommand]
      exact ⟨hcore.inFlight_eq_zero hupdate, hcore.withdrawMark_eq_false hupdate⟩
  have hs : Configured s := hcore.round.resolve_right (by simp [hround])
  have hmuted : s.station.state = .muted → s.fieldFault.station.state = .muted := fun hm => by
    rw [State.fieldFault_station, if_neg (by rw [hm]; nofun), hm]
  refine busSound_of_recessive (BusCore.of_unchosen (by rw [hbus]) hbatch.1 hbatch.2 (.inr ?_) ?_ ?_ ?_ ?_ ?_ (.inl ?_))
    (by rw [hbus]; rfl)
  · rw [hbus]
    exact ⟨by simp [BusController.leaveRound], rfl, rfl⟩
  · rw [hbus]
    exact fun hd => by cases hd
  · rw [hbus]
    exact fun hp => absurd rfl hp
  · intro hactive
    have hrank : s.fieldFault.rank? = s.rank? := by simp [State.rank?]
    rw [hrank]
    refine hcore.rank ?_
    rw [State.active, State.fieldFault_station] at hactive
    split at hactive
    next hstate => rw [State.active, hstate]; rfl
    next => exact hactive
  · rw [hbus]
    exact hcore.aborts
  · rw [hbus]
    exact fun ha => hmuted (hcore.limit ha)
  · exact configured_fieldFault hs

/-- What is transmitted is of the chosen kind. -/
theorem State.outgoing_kind {s : State} {m : Message} (h : s.outgoing = some m) : s.bus.chosen = some m.body.kind := by
  have hbody : ∀ kind epoch body, s.buildBody kind epoch = some body → body.kind = kind := by
    intro kind epoch body hb
    cases kind with
    | audit =>
      simp only [State.buildBody] at hb
      split at hb
      · obtain ⟨record, -, rfl⟩ := Option.map_eq_some_iff.mp hb
        rfl
      · cases hb
        rfl
      · cases hb
    | update | resyncRequest | resyncDone | block =>
      cases hb
      rfl
  unfold State.outgoing at h
  split at h
  next hchosen =>
    obtain ⟨body, hb, rfl⟩ := Option.map_eq_some_iff.mp h
    rw [hchosen, hbody _ _ _ hb]
  next => cases h

theorem State.queue_ne_nil_of_candidate {s : State} (h : s.candidate = some .update) : s.command.queue ≠ [] := by
  unfold State.candidate at h
  repeat' split at h
  all_goals simp_all

theorem busSound_select {s : State} (h : BusSound s) (hround : s.bus.round = .fields)
    (hfield : s.bus.field = .reservation) (hdrives : s.drives = true) : BusSound s.select := by
  obtain ⟨hcore, hsent⟩ := (busSound_iff s).mp h
  obtain ⟨hactive, hdriving⟩ : s.active = true ∧ s.bus.driving = true := by
    simpa [State.drives] using hdrives
  have hnone := hcore.chosen_eq_none (by simp [hfield]) (by simp [hround])
  have hflight := hcore.inFlight_eq_zero (by simp [hnone])
  have hmark := hcore.withdrawMark_eq_false (by simp [hnone])
  unfold State.select
  split
  next kind hcandidate =>
    refine busSound_of_recessive ⟨fun _ => ⟨hactive, hdriving, .inl ⟨hround, rfl⟩⟩, ?_, ?_, hcore.schedule,
      hcore.driving, hcore.part, hcore.rank, hcore.aborts, hcore.limit, hcore.round⟩ rfl
    · cases kind with
      | update =>
        have hqueue := List.length_pos_iff.mpr (State.queue_ne_nil_of_candidate hcandidate)
        simp only [State.choose, CommandUnit.choose, CommandUnit.takeBatch, Config.batchLimit, iff_true]
        omega
      | audit | resyncRequest | resyncDone | block => simp [State.choose, CommandUnit.choose, hflight]
    · cases kind <;> simp [State.choose, CommandUnit.choose, CommandUnit.takeBatch, hmark]
  next =>
    exact busSound_outside h (by simp [hfield]) (by simp [hround]) (by simp [hround]) rfl
      ⟨by simp [hround], .inl ⟨rfl, rfl⟩⟩ hcore.driving (.inr ⟨rfl, rfl, id⟩) rfl id

theorem busSound_reserve {s : State} (others : BitVec 16) (h : BusSound s) (hround : s.bus.round = .fields) :
    BusSound { s with bus := s.bus.reserve (others &&& s.reservationDrive) } := by
  obtain ⟨hcore, -⟩ := (busSound_iff s).mp h
  have hs : Configured s := hcore.round.resolve_right (by simp [hround])
  have hown : s.bus.chosen ≠ none → ∃ r ∈ s.rank?, r ∈ scheduleOf s.bus.belief (others &&& s.reservationDrive) := by
    intro hchosen
    obtain ⟨hactive, hdriving, -⟩ := hcore.chosen hchosen
    obtain ⟨r, hr⟩ := Option.isSome_iff_exists.mp (hcore.rank hactive)
    exact ⟨r, hr, own_mem_scheduleOf hr (by simp [State.drives, hactive, hdriving]) hchosen _ _⟩
  unfold BusController.reserve
  split
  next hempty =>
    have hnone : s.bus.chosen = none := by
      by_contra hchosen
      obtain ⟨r, -, hmem⟩ := hown hchosen
      rw [hempty] at hmem
      cases hmem
    exact busSound_of_recessive (BusCore.of_unchosen hnone (hcore.inFlight_eq_zero (by simp [hnone]))
      (hcore.withdrawMark_eq_false (by simp [hnone])) (.inr ⟨by simp [BusController.leaveRound], rfl, rfl⟩)
      (fun hd => by cases hd) (fun hp => absurd rfl hp) hcore.rank hcore.aborts hcore.limit (.inl hs)) rfl
  next r rest hschedule =>
    refine busSound_of_recessive ⟨fun hchosen => ?_, hcore.flight, hcore.mark, .inl ⟨rfl, by simp⟩, hcore.driving,
      fun hp => absurd rfl hp, hcore.rank, hcore.aborts, hcore.limit, .inl hs⟩ rfl
    obtain ⟨hactive, hdriving, -⟩ := hcore.chosen hchosen
    exact ⟨hactive, hdriving, .inr ⟨rfl, by rw [← hschedule]; exact hown hchosen⟩⟩

theorem busSound_move {c : Instr} {s t : State} (hmove : Move s c t) (h : BusSound s) : BusSound t := by
  obtain ⟨hcore, hsent⟩ := (busSound_iff s).mp h
  cases hmove with
  | idle => exact h
  | reset => exact busSound_reset _ _
  | configured hstate hread =>
    exact busSound_loaded h hstate (.inl ⟨rfl, configured_of_station (state := .listening) rfl nofun nofun⟩)
      rfl rfl rfl
  | configFaulted hstate =>
    exact busSound_loaded h hstate (.inr (hcore.round.resolve_left fun hc => hc.1 hstate)) rfl rfl rfl
  | pixelWord payload => exact busSound_congr h (by simp) (by simp [CommandUnit.SameBatch]) (by simp) (by simp)
  | withdraw payload tag =>
    refine (busSound_iff _).mpr ⟨⟨hcore.chosen, hcore.flight, fun hm => ?_, hcore.schedule, hcore.driving, hcore.part,
      hcore.rank, hcore.aborts, hcore.limit, hcore.round⟩, hsent⟩
    have hm' : (s.command.withdrawMark || s.command.inFlight ≠ 0) = true := hm
    rcases Bool.or_eq_true _ _ ▸ hm' with hm' | hm'
    · exact hcore.mark hm'
    · exact of_decide_eq_true hm'
  | rejoin payload tag hstate => exact busSound_rejoin tag h
  | countLine hconfig hrunning hline =>
    exact busSound_congr h (by simp) (by simp [CommandUnit.SameBatch]) (by simp) (by simp)
  | endFrame hconfig hrunning hline => exact busSound_endFrame hconfig h
  | seekGap hr =>
    exact busSound_outside h (by simp [hr]) (by simp [hr]) (by simp [hr]) rfl ⟨by simp, .inl ⟨rfl, rfl⟩⟩ hcore.driving
      (.inr ⟨rfl, rfl, by simp [hr]⟩) rfl id
  | idleGap =>
    unfold BusController.idleGap
    split
    next hr =>
      exact busSound_outside h (by simp [hr]) (by simp [hr]) (by simp [hr]) rfl ⟨by simp, .inl ⟨rfl, rfl⟩⟩
        hcore.driving (.inr ⟨rfl, rfl, by simp [hr]⟩) rfl id
    next => split <;> exact h
  | dominantLevel =>
    unfold BusController.restartCount
    split <;> exact h
  | driveStartPulse hactive hr =>
    exact busSound_outside h (by simp [hr]) (by simp [hr]) (by simp [hr]) rfl ⟨by simp [hr], .inl ⟨rfl, rfl⟩⟩
      hcore.driving (.inr ⟨rfl, rfl, id⟩) rfl fun _ => rfl
  | followRound hr =>
    have hplace : s.bus.round ≠ .data ∧ s.bus.round ≠ .off ∧ s.bus.round ≠ .fields := by
      rcases hr with hr | hr | hr <;> simp [hr]
    exact busSound_outside h (fun hf => hplace.2.2 hf.1) hplace.1 hplace.2.1 rfl
      ⟨by simp [BusController.followRound, BusController.leaveRound], .inr ⟨rfl, rfl⟩⟩ id (.inl rfl) rfl fun _ => rfl
  | fieldFault hrow hr => exact busSound_fieldFault h hr
  | originField others hr hfield =>
    exact busSound_outside h (by simp [hfield]) (by simp [hr]) (by simp [hr]) rfl ⟨by simp [hr], .inl ⟨rfl, rfl⟩⟩
      hcore.driving (.inl rfl) rfl id
  | markSlot others hr hfield =>
    exact busSound_outside h (by simp [hfield]) (by simp [hr]) (by simp [hr]) rfl ⟨by simp [hr], .inl ⟨rfl, rfl⟩⟩
      hcore.driving (.inr ⟨rfl, rfl, id⟩) rfl id
  | @mark others c hconfig hrunning hr hfield =>
    have hmark := busSound_takeMark (s.busEpoch others) hconfig h
    exact busSound_outside hmark (by simp [hfield]) (by simp [hr]) (by simp [hr]) rfl ⟨by simp [hr], .inl ⟨rfl, rfl⟩⟩
      ((busSound_iff _).mp hmark).1.driving (.inl rfl) rfl id
  | select hr hfield hdrives => exact busSound_select h hr hfield hdrives
  | reserve others hr hfield => exact busSound_reserve others h hr
  | transmit hslot hdrives hdrive hmessage =>
    refine (busSound_iff _).mpr ⟨hcore.congr ⟨rfl, rfl, rfl, rfl, rfl, rfl, rfl, rfl⟩ ⟨rfl, rfl⟩ rfl rfl, fun m hm => ?_⟩
    cases hm
    exact State.outgoing_kind hmessage
  | mismatch hsending =>
    exact busSound_of_recessive (hcore.congr ⟨rfl, rfl, rfl, rfl, rfl, rfl, rfl, rfl⟩ ⟨rfl, rfl⟩ rfl rfl) rfl
  | endSlot hrow hr =>
    obtain ⟨hslot, hfree⟩ := hcore.slotOutcome
    exact hslot.endSlot (by simpa using hr) hfree
  | @message r read hr hslot =>
    obtain ⟨hslot, hfree⟩ := (hcore.takeMessage r read hsent).slotOutcome
    exact hslot.endSlot (by simpa using hr) hfree
  | damageSlot hr => exact h
  | commandWord | answer | accept | recordSent => exact busSound_congr h rfl ⟨rfl, rfl⟩ rfl rfl

/-- Settles O58: every move keeps the relations of the controller. -/
theorem stepsKeepTheBusSound : Obligations.StepsKeepTheBusSound := fun _ _ hstep =>
  step_keeps (Inv := BusSound) (fun _ _ h => h) busSound_move hstep

end Sys2Proof.Machine
end

section
/-! The invariant `RepairSound` (spec/06_peers_and_audits.md 6.1 and spec/07_resynchronisation.md; R51, R59, R86 to R88, R104 to
R106, R115, R116, R119, R120): the own entry follows the station, and the resync unit is empty outside a repair. -/

namespace Sys2Proof.Machine

-- One thread, as for the tests: proofs elaborated side by side would exceed the build's memory limit.
set_option Elab.async false

open Sys2Proof.Safety

/-! ### The membership table -/

theorem Membership.updateOwn_entry (m : Membership) (rank : Option Rank) (f : Peer → Peer) (r : Rank) :
    atRank (m.updateOwn rank f).table r = if rank = some r then f (atRank m.table r) else atRank m.table r := by
  cases rank with
  | none => rfl
  | some q =>
    by_cases hq : q = r
    · simp [Membership.updateOwn, hq]
    · simp [Membership.updateOwn, Membership.update_other m f (Ne.symm hq), hq]

theorem Membership.update_entry (m : Membership) (q : Rank) (f : Peer → Peer) (r : Rank) :
    atRank (m.update q f).table r = if q = r then f (atRank m.table r) else atRank m.table r := by
  simpa [Membership.updateOwn] using m.updateOwn_entry (some q) f r

@[simp] theorem Membership.buildRecord_table (m : Membership) (digest : Digest) :
    (m.buildRecord digest).table = m.table := by
  rcases m.buildRecord_cases digest with heq | ⟨w, -, ⟨-, heq⟩ | ⟨-, heq⟩⟩ <;> rw [heq]

@[simp] theorem State.applyClosed_table (s : State) (torn : Bool) :
    (s.applyClosed torn).members.table = s.members.table := by
  rcases s.applyClosed_cases torn with ⟨-, heq⟩ | ⟨g, -, heq⟩ <;> simp [heq]

@[simp] theorem State.storeMark_table (s : State) (c : Settings) (line : Nat) (adopted : Epoch) (offset : Int) :
    (s.storeMark c line adopted offset).members.table = s.members.table := by
  unfold State.storeMark State.closeGeneration
  dsimp only
  repeat' split
  all_goals simp

@[simp] theorem Membership.reset_entry (r : Rank) : atRank Membership.reset.table r = Peer.initial := by
  simp [Membership.reset, atRank]

@[simp] theorem State.countLine_table (s : State) (c : Settings) :
    (s.countLine c).members.table = s.members.table := by
  by_cases h : s.timer.line + 1 = c.activeLines <;> simp [State.countLine, h]

@[simp] theorem Membership.openWindow_table (m : Membership) (state : StationState) (deferred : Bool) (digest : Digest)
    (e : Epoch) : (m.openWindow state deferred digest e).table = m.table := by
  cases state <;> simp only [Membership.openWindow]
  cases deferred <;> rfl

theorem Membership.renumber_entry (m : Membership) (own : Option Rank) (old adopted : Epoch) (r : Rank) :
    atRank (m.renumber own old adopted).table r =
      if adopted ≠ old + 1 ∧ otherPresent own r (atRank m.table r) = true then
        { atRank m.table r with lastHeard := some adopted }
      else atRank m.table r := by
  unfold Membership.renumber
  by_cases h : adopted = old + 1
  · rw [if_pos h, if_neg fun hne => hne.1 h]
  · rw [if_neg h, atRank_ofRanks]
    simp only [ne_eq, h, not_false_eq_true, true_and]

theorem Membership.silenceCheck_entry (m : Membership) (c : Settings) (own : Option Rank) (adopted : Epoch) (r : Rank) :
    atRank (m.silenceCheck c own adopted).table r =
      if silent c own adopted r (atRank m.table r) then (atRank m.table r).lost else atRank m.table r := by
  simp [Membership.silenceCheck]

/-- The decision gives verdicts and changes nothing else of an entry (R100). -/
theorem Membership.decide_entry (m : Membership) (r : Rank) :
    ∃ verdict, atRank m.decide.table r = { atRank m.table r with verdict := verdict } := by
  unfold Membership.decide
  split
  · exact ⟨_, rfl⟩
  · rw [atRank_ofRanks]
    unfold Peer.judge
    split
    · exact ⟨_, rfl⟩
    · split <;> exact ⟨_, rfl⟩

/-- The silence check is of other ranks' entries. -/
theorem silent_other {c : Settings} {own : Option Rank} {adopted : Epoch} {r : Rank} {p : Peer}
    (h : silent c own adopted r p = true) : own ≠ some r := by
  simp only [silent, otherPresent, Bool.and_eq_true, decide_eq_true_eq] at h
  exact h.1.1

/-! ### The relations of `RepairSound` but for the message in transmission and the time before configuration -/

/-- The own entry of a station in a state (R87, R106). -/
def OwnEntry (state : StationState) (p : Peer) : Prop :=
  (p.presence = .present ↔ state.active = true ∨ state = .muted) ∧
    (state.active = true → p.reported = state.reported) ∧ (state = .inStep → p.requester = false)

/-- A set requester flag is of a PRESENT rank (R106). -/
def Peer.RequestsPresent (p : Peer) : Prop := p.requester = true → p.presence = .present

structure RepairCore (s : State) : Prop where
  own : ∀ r, s.rank? = some r → OwnEntry s.station.state (s.peer r)
  requester : ∀ r, (s.peer r).RequestsPresent
  idle : s.station.state.repairing = false →
    s.resync.received = noBlocks ∧ s.resync.wait = 0 ∧ s.resync.requestPending = false
  done : s.resync.donePending = true → s.station.state = .inStep
  notFull : s.resync.full = false

theorem repairSound_iff (s : State) :
    RepairSound s ↔ RepairCore s ∧
      (Configured s ∨ s.bus.round = .off ∧ ∀ r ∈ allRanks, (s.peer r).presence = .absent) ∧
      (∀ m ∈ s.bus.drive.transmitting,
        s.bus.round = .data ∧ s.rank? = some m.rank ∧ s.station.state.reported = some m.state) :=
  ⟨fun ⟨h1, h2, h3, h4, h5, h6, h7⟩ => ⟨⟨fun r hr => h1 r hr, fun r => h2 r (mem_allRanks r), h3, h4, h5⟩, h6, h7⟩,
    fun ⟨⟨h1, h2, h3, h4, h5⟩, h6, h7⟩ => ⟨fun r hr => h1 r hr, fun r _ => h2 r, h3, h4, h5, h6, h7⟩⟩

/-- The received-block set of a repair that begins is not full. -/
theorem full_of_received {r : ResyncUnit} (h : r.received = noBlocks) : r.full = false := by
  rw [ResyncUnit.full, h]
  rfl

/-- What the relations ask of the resync unit. -/
def ResyncUnit.SameRepair (r r' : ResyncUnit) : Prop :=
  r.received = r'.received ∧ r.wait = r'.wait ∧ r.requestPending = r'.requestPending ∧ r.donePending = r'.donePending

namespace RepairCore

variable {s t : State}

/-- A change of entries alone: the own one still follows the station, and a set requester flag is of a PRESENT rank. -/
theorem of_entries (h : RepairCore s) (hrank : t.rank? = s.rank?) (hstate : t.station.state = s.station.state)
    (hresync : t.resync.SameRepair s.resync)
    (hown : ∀ r, s.rank? = some r → OwnEntry s.station.state (s.peer r) → OwnEntry s.station.state (t.peer r))
    (hrequester : ∀ r, (s.peer r).RequestsPresent → (t.peer r).RequestsPresent) : RepairCore t := by
  obtain ⟨hreceived, hwait, hrequest, hdone⟩ := hresync
  refine ⟨fun r hr => ?_, fun r => hrequester r (h.requester r), ?_, ?_, ?_⟩
  · rw [hstate]
    rw [hrank] at hr
    exact hown r hr (h.own r hr)
  · rw [hstate, hreceived, hwait, hrequest]
    exact h.idle
  · rw [hstate, hdone]
    exact h.done
  · rw [ResyncUnit.full, hreceived]
    exact h.notFull

theorem congr (h : RepairCore s) (hloader : t.loader = s.loader) (htable : t.members.table = s.members.table)
    (hstate : t.station.state = s.station.state) (hresync : t.resync.SameRepair s.resync) : RepairCore t := by
  have hpeer : ∀ r, t.peer r = s.peer r := fun r => by rw [State.peer, htable]; rfl
  exact h.of_entries (by rw [State.rank?, hloader]; rfl) hstate hresync (fun r _ hr => hpeer r ▸ hr)
    fun r hr => hpeer r ▸ hr

/-- A change of station state that sets the own entry as the new state asks. -/
theorem of_updateOwn (h : RepairCore s) {f : Peer → Peer} (hloader : t.loader = s.loader)
    (htable : t.members.table = (s.members.updateOwn s.rank? f).table) (hf : ∀ p, OwnEntry t.station.state (f p))
    (hpresent : ∀ p, (f p).presence = .present)
    (hidle : t.station.state.repairing = false →
      t.resync.received = noBlocks ∧ t.resync.wait = 0 ∧ t.resync.requestPending = false)
    (hdone : t.resync.donePending = true → t.station.state = .inStep) (hfull : t.resync.full = false) :
    RepairCore t := by
  have hrank : t.rank? = s.rank? := by rw [State.rank?, hloader]; rfl
  have hpeer : ∀ r, t.peer r = if s.rank? = some r then f (s.peer r) else s.peer r := fun r => by
    rw [State.peer, htable, Membership.updateOwn_entry]
    rfl
  refine ⟨fun r hr => ?_, fun r => ?_, hidle, hdone, hfull⟩
  · rw [hpeer, if_pos (hrank ▸ hr)]
    exact hf _
  · rw [hpeer]
    split
    · exact fun _ => hpresent _
    · exact h.requester r

theorem ownEntry_ownActive {state : StationState} {reported : Reported} (p : Peer)
    (hstate : state.reported = some reported) (hrepairing : state.repairing = true) :
    OwnEntry state (p.ownActive reported) := by
  cases state <;> simp_all [OwnEntry, Peer.ownActive, StationState.active, StationState.repairing]

theorem ownEntry_ownInStep (p : Peer) : OwnEntry .inStep p.ownInStep := by
  simp [OwnEntry, Peer.ownInStep, Peer.ownActive, StationState.active, StationState.reported]

theorem ownEntry_muted (p : Peer) : OwnEntry .muted p.found := by
  simp [OwnEntry, Peer.found, StationState.active]

/-! ### Changes of station state -/

theorem diverge (cause : DivergeCause) (h : RepairCore s) : RepairCore (s.diverge cause) :=
  h.of_updateOwn rfl rfl (fun p => ownEntry_ownActive p rfl rfl) (fun _ => rfl) (fun hr => (by cases hr))
    (fun hd => (by cases hd)) (full_of_received rfl)

theorem enterJoining (h : RepairCore s) : RepairCore s.enterJoining :=
  h.of_updateOwn rfl rfl (fun p => ownEntry_ownActive p rfl rfl) (fun _ => rfl) (fun hr => (by cases hr))
    (fun hd => (by cases hd)) (full_of_received rfl)

theorem repaired (event : Event) (h : RepairCore s) : RepairCore (s.repaired event) :=
  h.of_updateOwn rfl rfl ownEntry_ownInStep (fun _ => rfl) (fun _ => ⟨rfl, rfl, rfl⟩) (fun _ => rfl)
    (full_of_received rfl)

theorem mute (cause : MuteCause) (h : RepairCore s) : RepairCore (s.mute cause) := by
  unfold State.mute
  split
  · exact h
  · exact h.of_updateOwn rfl rfl ownEntry_muted (fun _ => rfl) (fun _ => ⟨rfl, rfl, rfl⟩) (fun hd => (by cases hd))
      (full_of_received rfl)

/-- Founding keeps the resync unit, in which nothing is received or requested while LISTENING. -/
theorem found (h : RepairCore s) (hstate : s.station.state = .listening) : RepairCore s.found :=
  h.of_updateOwn rfl rfl ownEntry_ownInStep (fun _ => rfl) (fun _ => h.idle (by rw [hstate]; rfl)) (fun _ => rfl)
    h.notFull

theorem receiveError (h : RepairCore s) : RepairCore s.receiveError := by
  rcases s.receiveError_cases with ⟨-, heq⟩ | ⟨hrepairing, heq⟩ | ⟨-, heq⟩ | heq <;> rw [heq]
  · exact h.diverge _
  · refine ⟨h.own, h.requester, fun hr => ?_, h.done, full_of_received rfl⟩
    rw [hrepairing] at hr
    cases hr
  · exact h.congr rfl rfl rfl ⟨rfl, rfl, rfl, rfl⟩
  · exact h

/-! ### The end of a slot -/

theorem outcomeAborted (h : RepairCore s) : RepairCore s.outcomeAborted :=
  h.congr (by simp) (by simp) (by simp) (by simp [ResyncUnit.SameRepair])

theorem slotOutcome (h : RepairCore s) : RepairCore s.slotOutcome := by
  rcases s.slotOutcome_cases with ⟨-, heq⟩ | ⟨-, -, ⟨-, heq⟩ | ⟨-, heq⟩⟩ <;> rw [heq]
  · exact h
  · have hcount : ∀ n, RepairCore { s.outcomeAborted with bus := { s.outcomeAborted.bus with aborts := n } } :=
      fun _ => h.outcomeAborted.congr rfl rfl rfl ⟨rfl, rfl, rfl, rfl⟩
    rcases s.readbackAbort_cases with ⟨-, heq⟩ | ⟨-, heq⟩ <;> rw [heq]
    · exact (hcount _).mute _
    · exact hcount _
  · exact h.outcomeAborted

/-! ### A message -/

/-- The header of another rank, or one of the own rank that carries the station's state. -/
theorem takeHeader {m : Message} (h : RepairCore s)
    (hown : s.rank? = some m.rank → s.station.state.reported = some m.state) : RepairCore (s.takeHeader m) := by
  cases hepoch : s.timer.epoch with
  | none =>
    rw [State.takeHeader, hepoch]
    exact h
  | some e =>
    rw [State.takeHeader, hepoch]
    have hentry : ∀ r, atRank (s.members.update m.rank (Peer.heard · m.state e)).table r =
        if m.rank = r then (s.peer r).heard m.state e else s.peer r := fun r => Membership.update_entry ..
    refine h.of_entries rfl rfl ⟨rfl, rfl, rfl, rfl⟩ (fun r hr hentry' => ?_) fun r hr => ?_
    · simp only [State.peer, hentry]
      split
      next heq =>
        have hreported := hown (heq ▸ hr)
        cases hstate : s.station.state <;> rw [hstate] at hreported <;>
          simp_all [OwnEntry, Peer.heard, Peer.reports, Peer.found, StationState.active, StationState.reported]
      next => exact hentry'
    · simp only [State.peer, hentry]
      split
      · exact fun _ => rfl
      · exact hr

/-- The body of a message whose sender's entry is PRESENT, if the epoch is known. -/
theorem takeBody {m : Message} (h : RepairCore s)
    (hpresent : s.timer.epoch.isSome = true → (s.peer m.rank).presence = .present) : RepairCore (s.takeBody m) := by
  have hflag : ∀ (flag : Bool) (r : Rank), atRank (s.members.update m.rank fun p => { p with requester := flag }).table r =
      if m.rank = r then { s.peer r with requester := flag } else s.peer r := fun flag r => Membership.update_entry ..
  unfold State.takeBody
  split
  · exact h.congr rfl rfl rfl ⟨rfl, rfl, rfl, rfl⟩
  · refine h.congr rfl ?_ rfl ⟨rfl, rfl, rfl, rfl⟩
    simp only [Membership.tallyAudit]
    repeat' split
    all_goals rfl
  · unfold State.takeRequestBody
    split
    next htaken =>
      rw [Bool.and_eq_true] at htaken
      obtain ⟨hepoch, hreported⟩ := htaken
      refine h.of_entries rfl rfl ⟨rfl, rfl, rfl, rfl⟩ (fun r hr hentry => ?_) fun r hr => ?_ <;>
        simp only [State.peer, hflag] <;> split
      next heq =>
        subst heq
        obtain ⟨h1, h2, -⟩ := hentry
        refine ⟨h1, h2, fun hstate => ?_⟩
        rw [h2 (by rw [hstate]; rfl), hstate] at hreported
        cases hreported
      next => exact hentry
      next heq => exact fun _ => heq ▸ hpresent hepoch
      next => exact hr
    next => exact h
  · refine h.of_entries rfl rfl ⟨rfl, rfl, rfl, rfl⟩ (fun r hr hentry => ?_) fun r hr => ?_ <;>
      simp only [State.takeDoneBody, State.peer, hflag] <;> split
    · obtain ⟨h1, h2, -⟩ := hentry
      exact ⟨h1, h2, fun _ => rfl⟩
    · exact hentry
    · exact fun hf => by cases hf
    · exact hr
  · unfold State.takeBlock State.install
    dsimp only
    split
    next hinstalls =>
      simp only [State.installs, Bool.and_eq_true] at hinstalls
      have hrepairing := hinstalls.1.1
      split
      next =>
        exact h.of_updateOwn rfl rfl ownEntry_ownInStep (fun _ => rfl) (fun _ => ⟨rfl, rfl, rfl⟩) (fun _ => rfl)
          (full_of_received rfl)
      next hfull =>
        refine ⟨h.own, h.requester, fun hr => ?_, h.done, by simpa using hfull⟩
        rw [hrepairing] at hr
        cases hr
    next => exact h.congr rfl rfl rfl ⟨rfl, rfl, rfl, rfl⟩

theorem takeHeader_present (m : Message) (hepoch : (s.takeHeader m).timer.epoch.isSome = true) :
    ((s.takeHeader m).peer m.rank).presence = .present := by
  cases he : s.timer.epoch with
  | none => simp [he] at hepoch
  | some e =>
    rw [State.takeHeader, he]
    simp [State.peer, Peer.heard, Peer.reports, Peer.found]

theorem takeValid (m : Message) (h : RepairCore s) : RepairCore (s.takeValid m) := by
  unfold State.takeValid
  split
  next hown =>
    have hmute := h.mute .duplicateRank
    refine hmute.takeBody fun _ => ((hmute.own m.rank ?_).1).mpr (.inr (by simp))
    simpa [State.rank?] using hown
  next hother => exact (h.takeHeader fun hown => absurd hown hother).takeBody (takeHeader_present m)

theorem outcomeClean (kind : MessageKind) (h : RepairCore s) : RepairCore (s.outcomeClean kind) := by
  cases kind with
  | update => exact h.congr rfl rfl rfl ⟨rfl, rfl, rfl, rfl⟩
  | audit =>
    simp only [State.outcomeClean]
    split
    · exact h.congr rfl rfl rfl ⟨rfl, rfl, rfl, rfl⟩
    · exact h
  | resyncRequest => exact ⟨h.own, h.requester, fun hr => ⟨(h.idle hr).1, (h.idle hr).2.1, rfl⟩, h.done, h.notFull⟩
  | resyncDone => exact ⟨h.own, h.requester, h.idle, fun hd => (by cases hd), h.notFull⟩
  | block => exact h

theorem takeOwn {m : Message} (h : RepairCore s) (hsent : s.station.state.reported = some m.state) :
    RepairCore (s.takeOwn m) := by
  have hbus : RepairCore { s with bus := { s.bus with chosen := none, aborts := 0 } } :=
    h.congr rfl rfl rfl ⟨rfl, rfl, rfl, rfl⟩
  exact ((hbus.takeHeader fun _ => hsent).takeBody (takeHeader_present m)).outcomeClean _

theorem takeMessage (r : Rank) (read : Option (List Byte)) (h : RepairCore s)
    (hsent : ∀ m ∈ s.bus.drive.transmitting, s.station.state.reported = some m.state) :
    RepairCore (s.takeMessage r read) := by
  rcases s.takeMessage_cases r read with ⟨-, heq⟩ | ⟨m, hm, heq⟩ | ⟨-, -, m, -, heq⟩ | ⟨-, -, -, heq⟩ <;> rw [heq]
  · exact h
  · exact h.takeOwn (hsent m hm)
  · exact h.takeValid m
  · exact h.receiveError

/-! ### A mark -/

theorem windowMark (c : Settings) (adopted : Epoch) (h : RepairCore s) : RepairCore (s.windowMark c adopted) := by
  have hopen : ∀ {t : State}, RepairCore t → RepairCore (t.openWindow adopted) := fun {t} ht =>
    ht.congr rfl (by simp [State.openWindow]) rfl ⟨rfl, rfl, rfl, rfl⟩
  have hclose : ∀ w, RepairCore (s.closeWindow w) := fun w => by
    have hdecided : RepairCore
        { s with members := s.members.decide.clearAudit, port := s.port.enqueueAll (s.members.lateRecords w) } := by
      refine h.of_entries rfl rfl ⟨rfl, rfl, rfl, rfl⟩ (fun r _ hentry => ?_) fun r hr => ?_ <;>
        obtain ⟨verdict, hverdict⟩ := s.members.decide_entry r <;>
        simp only [State.peer, Membership.clearAudit, hverdict]
      · exact hentry
      · exact hr
    rcases s.closeWindow_cases w with ⟨-, -, heq⟩ | heq <;> rw [heq]
    · exact hdecided.diverge _
    · exact hdecided
  unfold State.windowMark
  repeat' split
  · exact hopen (hclose _)
  · exact h.congr rfl rfl rfl ⟨rfl, rfl, rfl, rfl⟩
  · exact hclose _
  · exact hopen h
  · exact h

/-- Renumbering and the silence check leave the own entry, and make the entries they lose ABSENT without a request. -/
theorem memberMark (c : Settings) (old : Option Epoch) (adopted : Epoch) (h : RepairCore s) :
    RepairCore (s.memberMark c old adopted) := by
  cases old with
  | none =>
    simp only [State.memberMark]
    split
    · exact h.congr rfl (by simp) rfl ⟨rfl, rfl, rfl, rfl⟩
    · exact h
  | some old =>
    refine RepairCore.windowMark _ _ ?_
    have hrenumbered : RepairCore { s with members := s.members.renumber s.rank? old adopted } := by
      refine h.of_entries rfl rfl ⟨rfl, rfl, rfl, rfl⟩ (fun r _ hentry => ?_) fun r hr => ?_ <;>
        simp only [State.peer, Membership.renumber_entry] <;> split
      all_goals assumption
    refine hrenumbered.of_entries rfl rfl ⟨rfl, rfl, rfl, rfl⟩ (fun r hr hentry => ?_) fun r hr => ?_ <;>
      simp only [State.peer, State.checkSilence, Membership.silenceCheck_entry] <;> split
    next hsilent => exact absurd hr (silent_other hsilent)
    next => exact hentry
    next => exact fun hf => by cases hf
    next => exact hr

theorem waitMark (c : Settings) (repairingBefore eligibleBefore : Bool) (h : RepairCore s) :
    RepairCore (s.waitMark c repairingBefore eligibleBefore) := by
  have hcleared : RepairCore { s with resync := { s.resync with epochBlock := false } } :=
    h.congr rfl rfl rfl ⟨rfl, rfl, rfl, rfl⟩
  rcases s.waitMark_cases c repairingBefore eligibleBefore with ⟨-, -, -, heq⟩ | ⟨-, hrepairing, -, heq⟩ | heq <;>
    rw [heq]
  · exact hcleared.repaired _
  · refine ⟨h.own, h.requester, fun hr => ?_, h.done, h.notFull⟩
    rw [hrepairing] at hr
    cases hr
  · exact hcleared

theorem takeMark (c : Settings) (adopted : Epoch) (h : RepairCore s) : RepairCore (s.takeMark c adopted) := by
  have hrun : RepairCore (s.run (s.markActions c adopted)) := by
    refine State.markActions_keep (fun t ht => ?_) (fun t ht => ?_) (fun t ht => ?_) (fun t ht => ht.waitMark ..) h
    · exact ht.congr (by simp) (by simp) (by simp) (by simp [ResyncUnit.SameRepair])
    · exact ht.congr (by simp) (by simp) (by simp) (by simp [ResyncUnit.SameRepair])
    · refine RepairCore.memberMark _ _ _ ?_
      unfold State.stationMark
      split
      · exact ht.enterJoining
      · exact ht
  have hrepeat : RepairCore ((s.run (s.markActions c adopted)).repeatRequest c adopted) := by
    unfold State.repeatRequest
    split
    next hrequest =>
      simp only [Bool.and_eq_true] at hrequest
      refine ⟨hrun.own, hrun.requester, fun hr => ?_, hrun.done, hrun.notFull⟩
      rw [hrequest.1.1.1] at hr
      cases hr
    next => exact hrun
  exact hrepeat.congr rfl rfl rfl ⟨rfl, rfl, rfl, rfl⟩

end RepairCore

/-! ### Every command -/

theorem repairSound_reset (choices : Nat) (pending : List Instr) :
    RepairSound { State.reset with choices := choices, pending := pending } := by
  have hpeer : ∀ r, atRank State.reset.members.table r = Peer.initial := Membership.reset_entry
  refine (repairSound_iff _).mpr ⟨⟨nofun, fun r => ?_, fun _ => ⟨rfl, rfl, rfl⟩, nofun, full_of_received rfl⟩,
    .inr ⟨rfl, fun r _ => ?_⟩, nofun⟩ <;> simp only [State.peer, hpeer]
  · exact nofun
  · rfl

theorem repairSound_congr {s t : State} (h : RepairSound s) (hloader : t.loader = s.loader)
    (htable : t.members.table = s.members.table) (hstate : t.station.state = s.station.state)
    (hresync : t.resync = s.resync) (hbus : t.bus = s.bus) : RepairSound t := by
  obtain ⟨hcore, hbefore, hsent⟩ := (repairSound_iff s).mp h
  refine (repairSound_iff t).mpr ⟨hcore.congr hloader htable hstate (hresync ▸ ⟨rfl, rfl, rfl, rfl⟩), ?_, ?_⟩
  · simpa only [Configured, hstate, hbus, State.peer, htable] using hbefore
  · simpa only [hstate, hbus, State.rank?, hloader] using hsent

/-- A configured station with nothing in transmission. -/
theorem repairSound_of_silent {t : State} (h : RepairCore t) (hc : Configured t)
    (hdrive : t.bus.drive.transmitting = none) : RepairSound t :=
  (repairSound_iff t).mpr ⟨h, .inl hc, by simp [hdrive]⟩

/-- A station whose loader ends: no rank is PRESENT before it, so none after, whatever rank it takes. -/
theorem repairSound_loaded {s t : State} (h : RepairSound s) (hstate : s.station.state = .configuring)
    (htable : t.members.table = s.members.table) (hresync : t.resync = s.resync)
    (ht : t.station.state = .listening ∨ t.station.state = .configFault ∧ t.bus.round = s.bus.round)
    (hdrive : t.bus.drive = s.bus.drive) : RepairSound t := by
  obtain ⟨hcore, hbefore, hsent⟩ := (repairSound_iff s).mp h
  obtain ⟨hoff, habsent⟩ := hbefore.resolve_left fun hc => hc.1 hstate
  have hpeer : ∀ r, t.peer r = s.peer r := fun r => by rw [State.peer, htable]; rfl
  have hflag : ∀ r, (t.peer r).requester = false := fun r => by
    by_contra hf
    have hpresent := hcore.requester r (by simpa [hpeer] using hf)
    rw [habsent r (mem_allRanks r)] at hpresent
    cases hpresent
  have hsilent : s.bus.drive.transmitting = none := by
    cases hm : s.bus.drive.transmitting with
    | none => rfl
    | some m =>
      have hround := (hsent m hm).1
      rw [hoff] at hround
      cases hround
  have hinactive : t.station.state.active = false ∧ t.station.state ≠ .muted ∧ t.station.state ≠ .inStep := by
    rcases ht with hs | ⟨hs, -⟩ <;> rw [hs] <;> exact ⟨rfl, nofun, nofun⟩
  refine (repairSound_iff t).mpr ⟨⟨fun r _ => ?_, fun r hf => ?_, fun _ => ?_, fun hd => ?_, ?_⟩, ?_, ?_⟩
  · simp [OwnEntry, hpeer, habsent r (mem_allRanks r), hinactive]
  · rw [hflag] at hf
    cases hf
  · rw [hresync]
    exact hcore.idle (by rw [hstate]; rfl)
  · rw [hresync] at hd
    rw [hcore.done hd] at hstate
    cases hstate
  · rw [hresync]
    exact hcore.notFull
  · rcases ht with hs | ⟨-, hround⟩
    · exact .inl ⟨by rw [hs]; nofun, by rw [hs]; nofun⟩
    · exact .inr ⟨hround.trans hoff, fun r hr => hpeer r ▸ habsent r hr⟩
  · rw [hdrive, hsilent]
    nofun

/-- What a station transmits carries its rank and state. -/
theorem State.outgoing_header {s : State} {m : Message} (h : s.outgoing = some m) :
    s.rank? = some m.rank ∧ s.station.state.reported = some m.state := by
  unfold State.outgoing at h
  split at h
  next hrank hstate _ _ =>
    obtain ⟨body, -, rfl⟩ := Option.map_eq_some_iff.mp h
    exact ⟨hrank, hstate⟩
  next => cases h

theorem ownSlot_data {s : State} (h : s.ownSlot = true) :
    s.bus.round = .data ∧ s.bus.schedule[s.bus.slot]? = s.rank? := by
  unfold State.ownSlot State.slotRank at h
  by_cases hround : s.bus.round = .data
  · simp only [hround, if_true, Bool.and_eq_true, decide_eq_true_eq] at h
    exact ⟨hround, h.2⟩
  · simp [hround] at h

theorem repairSound_endFrame {s : State} (c : Settings) (h : RepairSound s) : RepairSound (s.endFrame c) := by
  have hbase : RepairSound { s.beginLine c 0 with timer := (s.beginLine c 0).timer.frameEnd (s.beginLine c 0).active } :=
    repairSound_congr h rfl rfl rfl rfl rfl
  have hlisten : ∀ t : State, RepairSound t → RepairSound (t.listen c) := fun t ht => by
    obtain ⟨hcore, hbefore, hsent⟩ := (repairSound_iff t).mp ht
    unfold State.listen
    split
    next hfounds =>
      simp only [State.founds, Bool.and_eq_true, decide_eq_true_eq] at hfounds
      refine (repairSound_iff _).mpr ⟨hcore.found hfounds.1,
        .inl (configured_of_station (state := .inStep) rfl nofun nofun), fun m hm => ?_⟩
      have hreported := (hsent m hm).2.2
      rw [hfounds.1] at hreported
      cases hreported
    next => split <;> exact ht
  exact repairSound_congr (hlisten _ hbase) (by simp [State.endFrame]) (by simp [State.endFrame])
    (by simp [State.endFrame]) (by simp [State.endFrame]) (by simp [State.endFrame])

theorem RepairCore.fieldFault {s : State} (h : RepairCore s) : RepairCore s.fieldFault := by
  unfold State.fieldFault State.receiveErrorAndAbort
  dsimp only
  split
  · have herror : RepairCore
        (State.receiveError { s with command := s.command.batchAborted.1, bus := { s.bus with chosen := none } }) :=
      RepairCore.receiveError (h.congr rfl rfl rfl ⟨rfl, rfl, rfl, rfl⟩)
    exact herror.congr (by simp) (by simp) (by simp) (by simp [ResyncUnit.SameRepair])
  · exact h.receiveError.outcomeAborted.congr rfl rfl rfl ⟨rfl, rfl, rfl, rfl⟩

theorem repairSound_move {c : Instr} {s t : State} (hmove : Move s c t) (h : RepairSound s) : RepairSound t := by
  obtain ⟨hcore, hbefore, hsent⟩ := (repairSound_iff s).mp h
  have hconfigured : s.bus.round ≠ .off → Configured s := fun hr => hbefore.resolve_right fun hoff => hr hoff.1
  have hsilent : s.bus.round ≠ .data → s.bus.drive.transmitting = none := fun hr => by
    cases hm : s.bus.drive.transmitting with
    | none => rfl
    | some m => exact absurd (hsent m hm).1 hr
  have hbus : ∀ b : BusController, Configured s → b.drive.transmitting = none → RepairSound { s with bus := b } :=
    fun _ hc hd => repairSound_of_silent (hcore.congr rfl rfl rfl ⟨rfl, rfl, rfl, rfl⟩) hc hd
  cases hmove with
  | idle => exact h
  | reset => exact repairSound_reset _ _
  | configured hstate hread => exact repairSound_loaded h hstate rfl rfl (.inl rfl) rfl
  | configFaulted hstate => exact repairSound_loaded h hstate rfl rfl (.inr ⟨rfl, rfl⟩) rfl
  | pixelWord payload => exact repairSound_congr h (by simp) (by simp) (by simp) (by simp) (by simp)
  | rejoin payload tag hstate =>
    have hpeer : ∀ r, (s.afterCommand.rejoin tag).peer r = Peer.initial := Membership.reset_entry
    refine repairSound_of_silent ⟨fun r _ => ?_, fun r => ?_, fun _ => ⟨rfl, rfl, rfl⟩, nofun, full_of_received rfl⟩
      (configured_of_station (state := .listening) rfl nofun nofun) (Drive.silenced_transmitting _) <;> rw [hpeer]
    · exact ⟨by simp [Peer.initial, StationState.active], nofun, nofun⟩
    · exact nofun
  | countLine hconfig hrunning hline => exact repairSound_congr h (by simp) (by simp) (by simp) (by simp) (by simp)
  | @endFrame c hconfig hrunning hline => exact repairSound_endFrame c h
  | seekGap hr => exact hbus _ (hconfigured (by simp [hr])) (hsilent (by simp [hr]))
  | idleGap =>
    unfold BusController.idleGap
    split
    next hr => exact hbus _ (hconfigured (by simp [hr])) (hsilent (by simp [hr]))
    next => split <;> exact h
  | dominantLevel =>
    unfold BusController.restartCount
    split <;> exact h
  | driveStartPulse hactive hr => exact hbus _ (configured_of_active hactive) rfl
  | followRound hr => exact hbus _ (hconfigured (by rcases hr with hr | hr | hr <;> simp [hr])) rfl
  | fieldFault hrow hr =>
    obtain ⟨suspect, hfault⟩ := s.fieldFault_bus
    exact repairSound_of_silent hcore.fieldFault (configured_fieldFault (hconfigured (by simp [hr])))
      (by rw [hfault]; rfl)
  | originField others hr hfield | markSlot others hr hfield =>
    exact hbus _ (hconfigured (by simp [hr])) (hsilent (by simp [hr]))
  | mark others hconfig hrunning hr hfield =>
    refine repairSound_of_silent ((hcore.takeMark _ _).congr rfl rfl rfl ⟨rfl, rfl, rfl, rfl⟩)
      (configured_takeMark _ _ (hconfigured (by simp [hr]))) ?_
    have hdrive := hsilent (by simp [hr])
    simpa [State.fieldAfterMark] using hdrive
  | select hr hfield hdrives =>
    refine repairSound_of_silent (hcore.congr (by simp) (by simp) (by simp) (by simp [ResyncUnit.SameRepair])) ?_ ?_
    · simpa [Configured] using hconfigured (by simp [hr])
    · unfold State.select
      split
      · rfl
      · exact hsilent (by simp [hr])
  | reserve others hr hfield =>
    refine hbus _ (hconfigured (by simp [hr])) ?_
    unfold BusController.reserve
    split <;> rfl
  | transmit hslot hdrives hdrive hmessage =>
    refine (repairSound_iff _).mpr ⟨hcore.congr rfl rfl rfl ⟨rfl, rfl, rfl, rfl⟩, hbefore, fun m hm => ?_⟩
    cases hm
    obtain ⟨hround, -⟩ := ownSlot_data hslot
    exact ⟨hround, State.outgoing_header hmessage⟩
  | mismatch hsending =>
    exact (repairSound_iff _).mpr ⟨hcore.congr rfl rfl rfl ⟨rfl, rfl, rfl, rfl⟩, hbefore, nofun⟩
  | endSlot hrow hr =>
    refine repairSound_of_silent (hcore.slotOutcome.congr rfl rfl rfl ⟨rfl, rfl, rfl, rfl⟩)
      (configured_slotOutcome (hconfigured (by simp [hr]))) ?_
    simp [BusController.endSlot_drive, Drive.transmitting]
  | @message r read hr hslot =>
    refine repairSound_of_silent (((hcore.takeMessage r read fun m hm => (hsent m hm).2.2).slotOutcome).congr rfl rfl rfl
      ⟨rfl, rfl, rfl, rfl⟩) (configured_slotOutcome (configured_takeMessage _ _ (hconfigured (by simp [hr])))) ?_
    simp [BusController.endSlot_drive, Drive.transmitting]
  | commandWord | answer | accept | withdraw | recordSent | damageSlot => exact h

/-- Settles O59: every move keeps the relations of the repair. -/
theorem stepsKeepTheRepairSound : Obligations.StepsKeepTheRepairSound := fun _ _ hstep =>
  step_keeps (Inv := RepairSound) (fun _ _ h => h) repairSound_move hstep

end Sys2Proof.Machine
end

section
/-! The invariant `AuditSound` (spec/06_peers_and_audits.md 6.4 and 6.5; R93 to R98, R121): the own audit in its relations to the
window, the record and the PENDING generation. -/

namespace Sys2Proof.Machine

-- One thread, as for the tests: proofs elaborated side by side would exceed the build's memory limit.
set_option Elab.async false

open Sys2Proof.Safety

/-! ### The relations of `AuditSound`, of the parts they look at -/

/-- `AuditSound` of an audit state, a station state, whether a generation is PENDING and the epoch known, the own rank and
the provider wait. -/
structure AuditParts (m : Membership) (state : StationState) (closed known : Bool) (own : Option Rank) (wait : Nat) :
    Prop where
  stage : m.stage ≠ .none → state.active = true ∧ m.window.isSome = true
  pending : m.stage = .pending .digest → m.record.isSome = true
  digest : m.stage = .awaitingApply .digest → state = .inStep ∧ closed = true
  heartbeat : m.stage = .awaitingApply .heartbeat → closed = true
  marks : ∀ w ∈ m.window, w.marks ≤ 1
  record : ∀ w ∈ m.window, ∀ a ∈ m.record, a.epoch = w.epoch
  epoch : m.window.isSome = true → known = true
  tally : ∀ r, (atRank m.tally r).isSome = true → m.window.isSome = true
  young : ∀ r, own = some r → state.repairing = true → (atRank m.tally r).isSome = true →
    ∃ w ∈ m.window, wait ≤ w.marks

/-- `AuditParts` of a station, with a wait of its own. -/
def AuditAt (s : State) (wait : Nat) : Prop :=
  AuditParts s.members s.station.state s.store.closed.isSome s.timer.epoch.isSome s.rank? wait

theorem auditSound_iff (s : State) : AuditSound s ↔ AuditAt s s.resync.wait :=
  ⟨fun ⟨h1, h2, h3, h4, h5, h6, h7, h8, h9⟩ => ⟨h1, h2, h3, h4, h5, h6, h7, fun r => h8 r (mem_allRanks r), h9⟩,
    fun ⟨h1, h2, h3, h4, h5, h6, h7, h8, h9⟩ => ⟨h1, h2, h3, h4, h5, h6, h7, fun r _ => h8 r, h9⟩⟩

/-- The audit state of a membership unit. -/
def Membership.SameAudit (m m' : Membership) : Prop :=
  m.window = m'.window ∧ m.stage = m'.stage ∧ m.record = m'.record ∧ m.tally = m'.tally

namespace AuditParts

variable {m m' : Membership} {state state' : StationState} {closed known : Bool} {own : Option Rank} {wait : Nat}

theorem congr (h : AuditParts m state closed known own wait) (hm : m'.SameAudit m) :
    AuditParts m' state closed known own wait := by
  obtain ⟨hwindow, hstage, hrecord, htally⟩ := hm
  obtain ⟨h1, h2, h3, h4, h5, h6, h7, h8, h9⟩ := h
  constructor <;> simp only [hwindow, hstage, hrecord, htally] <;> assumption

/-- A station state that is no repair, and active where the stage needs it. -/
theorem of_state (h : AuditParts m state closed known own wait) (hrepairing : state'.repairing = false)
    (hactive : m.stage ≠ .none → state'.active = true) (hstep : m.stage = .awaitingApply .digest → state' = .inStep)
    (own' : Option Rank) (wait' : Nat) : AuditParts m state' closed known own' wait' :=
  { h with
    stage := fun hs => ⟨hactive hs, (h.stage hs).2⟩
    digest := fun hs => ⟨hstep hs, (h.digest hs).2⟩
    young := fun _ _ hr => by rw [hrepairing] at hr; cases hr }

theorem inStep (h : AuditParts m state closed known own wait) (wait' : Nat) :
    AuditParts m .inStep closed known own wait' :=
  h.of_state rfl (fun _ => rfl) (fun _ => rfl) own wait'

/-- A station that is not active has no own audit. -/
theorem stage_eq_none (h : AuditParts m state closed known own wait) (hstate : state.active = false) :
    m.stage = .none := by
  by_contra hs
  rw [(h.stage hs).1] at hstate
  cases hstate

/-- A station that is not active, in a state that is no repair. -/
theorem of_inactive (h : AuditParts m state closed known own wait) (hstate : state.active = false)
    (hrepairing : state'.repairing = false) (own' : Option Rank) (wait' : Nat) :
    AuditParts m state' closed known own' wait' := by
  have hnone := h.stage_eq_none hstate
  exact h.of_state hrepairing (fun hs => absurd hnone hs) (fun hs => by rw [hnone] at hs; cases hs) own' wait'

/-- A repair that begins: its wait is 0, and a digest that waited comes due as a heartbeat. -/
theorem diverged (h : AuditParts m state closed known own wait) :
    AuditParts { m with stage := m.stage.diverged } .diverged closed known own 0 := by
  have hnone : m.stage.diverged = .none → m.stage = .none := by cases m.stage <;> simp [AuditStage.diverged]
  refine ⟨fun hs => ⟨rfl, (h.stage fun hn => hs (by simp [hn, AuditStage.diverged])).2⟩, fun hs => h.pending ?_,
    fun hs => ?_, fun hs => ?_, h.marks, h.record, h.epoch, h.tally, fun r hr _ ht => ?_⟩
  · cases hstage : m.stage <;> simp_all [AuditStage.diverged]
  · cases hstage : m.stage <;> simp_all [AuditStage.diverged]
  · cases hstage : m.stage with
    | awaitingApply due =>
      cases due with
      | digest => exact (h.digest hstage).2
      | heartbeat => exact h.heartbeat hstage
    | none | pending _ | sent _ => simp [hstage, AuditStage.diverged] at hs
  · obtain ⟨w, hw⟩ := Option.isSome_iff_exists.mp (h.tally r ht)
    exact ⟨w, hw, Nat.zero_le _⟩

theorem joining (h : AuditParts m state closed known own wait) (hstate : state.active = false) :
    AuditParts m .joining closed known own 0 := by
  have hnone := h.stage_eq_none hstate
  refine { h with
    stage := fun hs => absurd hnone hs
    digest := fun hs => by rw [hnone] at hs; cases hs
    young := fun r _ _ ht => ?_ }
  obtain ⟨w, hw⟩ := Option.isSome_iff_exists.mp (h.tally r ht)
  exact ⟨w, hw, Nat.zero_le _⟩

theorem muted (h : AuditParts m state closed known own wait) (wait' : Nat) :
    AuditParts { m with stage := .none, record := none } .muted closed known own wait' :=
  ⟨fun hs => absurd rfl hs, nofun, nofun, nofun, h.marks, fun _ _ => nofun, h.epoch, h.tally, nofun⟩

/-- An apply builds the record that waited for it, and no stage waits any longer. -/
theorem applied (h : AuditParts m state closed known own wait) (digest : Digest) :
    AuditParts (m.buildRecord digest) state false known own wait := by
  cases hstage : m.stage with
  | awaitingApply due =>
    obtain ⟨hactive, hwindow⟩ := h.stage (by simp [hstage])
    obtain ⟨w, hw⟩ := Option.isSome_iff_exists.mp hwindow
    cases due with
    | digest =>
      have hbuilt : m.buildRecord digest = { m with record := some ⟨w.epoch, digest⟩, stage := .pending .digest } := by
        simp [Membership.buildRecord, hstage, hw]
      rw [hbuilt]
      exact ⟨fun _ => ⟨hactive, hwindow⟩, fun _ => rfl, nofun, nofun, h.marks, fun v hv a ha => by
        cases ha; rw [hw] at hv; cases hv; rfl, h.epoch, h.tally, h.young⟩
    | heartbeat =>
      have hbuilt : m.buildRecord digest = { m with stage := .pending .heartbeat } := by
        simp [Membership.buildRecord, hstage, hw]
      rw [hbuilt]
      exact ⟨fun _ => ⟨hactive, hwindow⟩, nofun, nofun, nofun, h.marks, h.record, h.epoch, h.tally, h.young⟩
  | none | pending _ | sent _ =>
    have hbuilt : m.buildRecord digest = m := by simp [Membership.buildRecord, hstage]
    rw [hbuilt]
    exact { h with
      digest := fun hs => by rw [hstage] at hs; cases hs
      heartbeat := fun hs => by rw [hstage] at hs; cases hs }

/-- A generation that becomes PENDING, an epoch that becomes known. -/
theorem with_closed (h : AuditParts m state closed known own wait) : AuditParts m state true known own wait :=
  { h with digest := fun hs => ⟨(h.digest hs).1, rfl⟩, heartbeat := fun _ => rfl }

theorem with_known (h : AuditParts m state closed known own wait) : AuditParts m state closed true own wait :=
  { h with epoch := fun _ => rfl }

@[simp] theorem emptyTally_entry (r : Rank) : atRank emptyTally r = none := by simp [emptyTally, atRank]

theorem cleared (m : Membership) (state : StationState) (closed known : Bool) (own : Option Rank) (wait : Nat) :
    AuditParts m.clearAudit state closed known own wait :=
  ⟨fun hs => absurd rfl hs, nofun, nofun, nofun, nofun, nofun, nofun, fun r ht => by simp [Membership.clearAudit] at ht,
    fun r _ _ ht => by simp [Membership.clearAudit] at ht⟩

/-- A window that opens has an empty tally, and an own audit by the station state. -/
theorem opened (m : Membership) (state : StationState) (closed : Bool) (digest : Digest) (e : Epoch)
    (own : Option Rank) (wait : Nat) : AuditParts (m.openWindow state closed digest e) state closed true own wait := by
  have htally : (m.openWindow state closed digest e).tally = emptyTally := by
    cases state <;> cases closed <;> rfl
  have hwindow : (m.openWindow state closed digest e).window = some ⟨e, 0⟩ := by
    cases state <;> cases closed <;> rfl
  refine ⟨?_, ?_, ?_, ?_, ?_, ?_, fun _ => rfl, fun r ht => by simp [htally] at ht, fun r _ _ ht => by simp [htally] at ht⟩
  · cases state <;> cases closed <;> simp [Membership.openWindow, StationState.active]
  · cases state <;> cases closed <;> simp [Membership.openWindow]
  · cases state <;> cases closed <;> simp [Membership.openWindow]
  · cases state <;> cases closed <;> simp [Membership.openWindow]
  · simp [hwindow]
  · cases state <;> cases closed <;> simp [Membership.openWindow]

/-- A window that counts its first mark: the own tally entry of a repairing station may be one mark older. -/
theorem counted (h : AuditParts m state closed known own wait) {w : AuditWindow} (hw : m.window = some w)
    (hmarks : w.marks = 0) :
    AuditParts { m with window := some { w with marks := 1 } } state closed known own (wait + 1) := by
  refine ⟨fun hs => ⟨(h.stage hs).1, rfl⟩, h.pending, h.digest, h.heartbeat, ?_, ?_, fun _ => h.epoch (by rw [hw]; rfl),
    fun _ _ => rfl, fun r hr hrepairing ht => ?_⟩
  · rintro v ⟨⟩
    exact Nat.le_refl 1
  · rintro v ⟨⟩ a ha
    exact h.record w hw a ha
  · obtain ⟨v, hv, hwait⟩ := h.young r hr hrepairing ht
    rw [hw] at hv
    cases hv
    exact ⟨_, rfl, by dsimp only; omega⟩

theorem wait_mono (h : AuditParts m state closed known own wait) {wait' : Nat} (hwait : wait' ≤ wait) :
    AuditParts m state closed known own wait' := by
  refine { h with young := fun r hr hrepairing ht => ?_ }
  obtain ⟨w, hw, hle⟩ := h.young r hr hrepairing ht
  exact ⟨w, hw, hwait.trans hle⟩

end AuditParts

/-! ### The operations -/

@[simp] theorem Membership.updateOwn_frame (m : Membership) (rank : Option Rank) (f : Peer → Peer) :
    (m.updateOwn rank f).window = m.window ∧ (m.updateOwn rank f).stage = m.stage ∧
      (m.updateOwn rank f).record = m.record ∧ (m.updateOwn rank f).tally = m.tally := m.updateOwn_audit rank f

@[simp] theorem Membership.silenceCheck_frame (m : Membership) (c : Settings) (own : Option Rank) (adopted : Epoch) :
    (m.silenceCheck c own adopted).window = m.window ∧ (m.silenceCheck c own adopted).stage = m.stage ∧
      (m.silenceCheck c own adopted).record = m.record ∧ (m.silenceCheck c own adopted).tally = m.tally :=
  ⟨rfl, rfl, rfl, rfl⟩

@[simp] theorem Membership.renumber_frame (m : Membership) (own : Option Rank) (old adopted : Epoch) :
    (m.renumber own old adopted).window = m.window ∧ (m.renumber own old adopted).stage = m.stage ∧
      (m.renumber own old adopted).record = m.record ∧ (m.renumber own old adopted).tally = m.tally := by
  unfold Membership.renumber
  split <;> exact ⟨rfl, rfl, rfl, rfl⟩

namespace AuditAt

variable {s t : State} {wait : Nat}

theorem congr (h : AuditAt s wait) (hm : t.members.SameAudit s.members) (hloader : t.loader = s.loader)
    (hstate : t.station.state = s.station.state) (hstore : t.store.closed = s.store.closed)
    (hepoch : t.timer.epoch = s.timer.epoch) : AuditAt t wait := by
  have hparts := AuditParts.congr h hm
  rwa [AuditAt, hstate, hstore, hepoch, show t.rank? = s.rank? by rw [State.rank?, hloader]; rfl]

/-- The relations at the station's own wait. -/
theorem same (h : AuditAt s s.resync.wait) (hm : t.members.SameAudit s.members) (hloader : t.loader = s.loader)
    (hstate : t.station.state = s.station.state) (hstore : t.store.closed = s.store.closed)
    (hepoch : t.timer.epoch = s.timer.epoch) (hresync : t.resync = s.resync) : AuditAt t t.resync.wait :=
  hresync ▸ h.congr hm hloader hstate hstore hepoch

theorem diverge (cause : DivergeCause) (h : AuditAt s wait) : AuditAt (s.diverge cause) 0 :=
  (AuditParts.diverged h).congr (by simp [Membership.SameAudit])

theorem enterJoining (h : AuditAt s wait) (hstate : s.station.state = .listening) : AuditAt s.enterJoining 0 :=
  (AuditParts.joining h (by rw [hstate]; rfl)).congr (by simp [Membership.SameAudit])

theorem repaired (event : Event) (h : AuditAt s wait) (wait' : Nat) : AuditAt (s.repaired event) wait' :=
  (AuditParts.inStep h wait').congr (by simp [Membership.SameAudit])

theorem mute (cause : MuteCause) (h : AuditAt s s.resync.wait) : AuditAt (s.mute cause) (s.mute cause).resync.wait := by
  unfold State.mute
  split
  · exact h
  · exact (AuditParts.muted h 0).congr (by simp [Membership.SameAudit])

theorem receiveError (h : AuditAt s s.resync.wait) : AuditAt s.receiveError s.receiveError.resync.wait := by
  rcases s.receiveError_cases with ⟨-, heq⟩ | ⟨-, heq⟩ | ⟨-, heq⟩ | heq <;> rw [heq]
  · exact h.diverge _
  all_goals exact h

theorem outcomeAborted (h : AuditAt s s.resync.wait) : AuditAt s.outcomeAborted s.outcomeAborted.resync.wait :=
  h.same (by simp [Membership.SameAudit]) (by simp) (by simp) (by simp) (by simp) (by simp)

theorem slotOutcome (h : AuditAt s s.resync.wait) : AuditAt s.slotOutcome s.slotOutcome.resync.wait := by
  rcases s.slotOutcome_cases with ⟨-, heq⟩ | ⟨-, -, ⟨-, heq⟩ | ⟨-, heq⟩⟩ <;> rw [heq]
  · exact h
  · have hcount : ∀ n, AuditAt { s.outcomeAborted with bus := { s.outcomeAborted.bus with aborts := n } }
        s.outcomeAborted.resync.wait := fun _ => h.outcomeAborted
    rcases s.readbackAbort_cases with ⟨-, heq⟩ | ⟨-, heq⟩ <;> rw [heq]
    · exact AuditAt.mute _ (hcount _)
    · exact hcount _
  · exact h.outcomeAborted

/-! ### A message -/

theorem takeHeader (m : Message) (h : AuditAt s wait) : AuditAt (s.takeHeader m) wait := by
  unfold State.takeHeader
  split
  · exact h.congr ⟨rfl, rfl, rfl, rfl⟩ rfl rfl rfl rfl
  · exact h

/-- An AUDIT enters the tally of an OPEN window, and no repairing station's own entry: it would have to report IN STEP. -/
theorem tallied (h : AuditAt s wait) {rank : Rank} {state : Reported} (epoch : Epoch) (digest : Option Digest)
    (hown : s.rank? = some rank → s.station.state.repairing = true → state ≠ .inStep) :
    AuditParts (s.members.tallyAudit rank state epoch digest) s.station.state s.store.closed.isSome s.timer.epoch.isSome
      s.rank? wait := by
  unfold Membership.tallyAudit
  split
  next w d hw =>
    split
    next htaken =>
      simp only [Bool.and_eq_true, decide_eq_true_eq] at htaken
      refine { h with tally := fun r _ => by rw [hw]; rfl, young := fun r hr hrepairing ht => ?_ }
      have hne : r ≠ rank := fun heq => hown (heq ▸ hr) hrepairing htaken.2
      rw [atRank_setRank_other _ _ hne] at ht
      exact h.young r hr hrepairing ht
    next => exact h
  next => exact h

theorem takeBody {m : Message} (h : AuditAt s s.resync.wait)
    (hown : s.rank? = some m.rank → s.station.state.repairing = true → m.state ≠ .inStep) :
    AuditAt (s.takeBody m) (s.takeBody m).resync.wait := by
  unfold State.takeBody
  split
  next items _ =>
    have hclosed : (s.store.stage items).closed = s.store.closed := by
      unfold WallStore.stage
      split <;> rfl
    exact h.congr ⟨rfl, rfl, rfl, rfl⟩ rfl rfl hclosed rfl
  next epoch digest _ => exact h.tallied epoch digest hown
  next =>
    unfold State.takeRequestBody
    split
    · exact h.congr ⟨rfl, rfl, rfl, rfl⟩ rfl rfl rfl rfl
    · exact h
  next => exact h.congr ⟨rfl, rfl, rfl, rfl⟩ rfl rfl rfl rfl
  next b epoch values _ =>
    have hclosed : (s.store.writeAll values).closed = s.store.closed := (s.store.writeAll_frame values).2.2.1
    unfold State.takeBlock State.install
    dsimp only
    split
    · split
      · have hinstalled : AuditAt
            { s with store := s.store.writeAll values, resync := (s.resync.seeBlock b).receive b } s.resync.wait :=
          h.congr ⟨rfl, rfl, rfl, rfl⟩ rfl rfl hclosed rfl
        exact hinstalled.repaired _ _
      · exact h.congr ⟨rfl, rfl, rfl, rfl⟩ rfl rfl hclosed rfl
    · exact h

theorem takeValid (m : Message) (h : AuditAt s s.resync.wait) : AuditAt (s.takeValid m) (s.takeValid m).resync.wait := by
  unfold State.takeValid
  split
  · refine (h.mute _).takeBody fun _ hr => ?_
    simp [StationState.repairing] at hr
  next hother =>
    have hheader : AuditAt (s.takeHeader m) (s.takeHeader m).resync.wait := by
      simpa using h.takeHeader m
    exact hheader.takeBody fun hown => absurd (by simpa [State.rank?] using hown) hother

theorem outcomeClean (kind : MessageKind) (h : AuditAt s s.resync.wait) :
    AuditAt (s.outcomeClean kind) (s.outcomeClean kind).resync.wait := by
  cases kind with
  | audit =>
    simp only [State.outcomeClean]
    split
    next k hk =>
      exact { h with
        stage := fun _ => h.stage (by rw [hk]; nofun)
        pending := nofun
        digest := nofun
        heartbeat := nofun }
    next => exact h
  | update | resyncRequest | resyncDone | block => exact h

theorem takeOwn {m : Message} (h : AuditAt s s.resync.wait) (hsent : s.station.state.reported = some m.state) :
    AuditAt (s.takeOwn m) (s.takeOwn m).resync.wait := by
  have hheader : AuditAt (State.takeHeader { s with bus := { s.bus with chosen := none, aborts := 0 } } m)
      (State.takeHeader { s with bus := { s.bus with chosen := none, aborts := 0 } } m).resync.wait := by
    simpa using AuditAt.takeHeader (s := { s with bus := { s.bus with chosen := none, aborts := 0 } }) m h
  refine (hheader.takeBody fun _ hr hstate => ?_).outcomeClean _
  rw [hstate] at hsent
  simp only [State.takeHeader_frame] at hr
  cases hs : s.station.state <;> rw [hs] at hr hsent <;> simp [StationState.repairing, StationState.reported] at hr hsent

theorem takeMessage (r : Rank) (read : Option (List Byte)) (h : AuditAt s s.resync.wait)
    (hsent : ∀ m ∈ s.bus.drive.transmitting, s.station.state.reported = some m.state) :
    AuditAt (s.takeMessage r read) (s.takeMessage r read).resync.wait := by
  rcases s.takeMessage_cases r read with ⟨-, heq⟩ | ⟨m, hm, heq⟩ | ⟨-, -, m, -, heq⟩ | ⟨-, -, -, heq⟩ <;> rw [heq]
  · exact h
  · exact h.takeOwn (hsent m hm)
  · exact h.takeValid m
  · exact h.receiveError

/-! ### A mark -/

theorem applyClosed (torn : Bool) (h : AuditAt s wait) :
    AuditAt (s.applyClosed torn) wait ∧ (s.applyClosed torn).store.closed = none := by
  rcases s.applyClosed_cases torn with ⟨hclosed, heq⟩ | ⟨g, -, heq⟩ <;> rw [heq]
  · exact ⟨h, hclosed⟩
  · exact ⟨AuditParts.applied h _, rfl⟩

theorem storeMark (c : Settings) (line : Nat) (adopted : Epoch) (offset : Int) (h : AuditAt s wait) :
    AuditAt (s.storeMark c line adopted offset) wait := by
  unfold State.storeMark State.closeGeneration
  dsimp only
  have hclosed : AuditAt
      { s.applyClosed true with store := (s.applyClosed true).store.close adopted offset } wait :=
    AuditParts.with_closed (h.applyClosed true).1
  split
  · split
    · exact (hclosed.applyClosed false).1
    · exact hclosed
  · exact h

theorem timerMark (c : Settings) (adopted : Epoch) (h : AuditAt s wait) :
    AuditAt (s.timerMark c adopted) wait ∧ (s.timerMark c adopted).timer.epoch.isSome = true := by
  obtain ⟨-, hepoch, -⟩ := s.timerMark_timer c adopted
  refine ⟨?_, by rw [hepoch]; rfl⟩
  have hknown := AuditParts.with_known h
  simpa [AuditAt, State.rank?, hepoch] using hknown

/-- A mark at a window: an own tally entry of a repairing station that is still there is of a window with this mark
counted. -/
theorem windowMark (c : Settings) (adopted : Epoch) (h : AuditAt s wait) (hepoch : s.timer.epoch.isSome = true) :
    AuditAt (s.windowMark c adopted) (wait + 1) := by
  have hopen : ∀ t : State, t.timer.epoch = s.timer.epoch → AuditAt (t.openWindow adopted) (wait + 1) := fun t ht => by
    rw [AuditAt, State.openWindow_members, State.openWindow_timer, ht, hepoch]
    exact AuditParts.opened ..
  have hclose : ∀ w, AuditAt (s.closeWindow w) (wait + 1) := fun w => by
    rcases s.closeWindow_cases w with ⟨-, -, heq⟩ | heq <;> rw [heq]
    · exact (AuditParts.cleared s.members.decide ..).congr
        (by simp [Membership.SameAudit, Membership.clearAudit, AuditStage.diverged])
    · exact AuditParts.cleared ..
  unfold State.windowMark
  split
  next w hw =>
    split
    · exact hopen _ (by simp)
    · split
      next hmarks => exact AuditParts.counted h hw hmarks
      next => exact hclose w
  next hnone =>
    split
    · exact hopen s rfl
    · refine { h with young := fun r _ _ ht => ?_ }
      have hwindow := h.tally r ht
      rw [hnone] at hwindow
      cases hwindow

theorem memberMark (c : Settings) {old : Option Epoch} (adopted : Epoch) (h : AuditAt s wait)
    (hepoch : s.timer.epoch.isSome = true) (hold : s.members.window.isSome = true → old.isSome = true) :
    AuditAt (s.memberMark c old adopted) (wait + 1) := by
  cases old with
  | none =>
    have hwindow : s.members.window = none := by
      by_contra hne
      exact nomatch hold (Option.isSome_iff_ne_none.mpr hne)
    have hmark := h.windowMark c adopted hepoch
    simpa only [State.windowMark, hwindow, State.memberMark] using hmark
  | some old =>
    refine AuditAt.windowMark _ _ ?_ hepoch
    exact AuditAt.congr h (by simp [State.checkSilence, Membership.SameAudit]) rfl rfl rfl rfl

theorem stationMark (h : AuditAt s s.resync.wait) : AuditAt s.stationMark s.stationMark.resync.wait := by
  unfold State.stationMark
  split
  · exact h.enterJoining ‹_›
  · exact h

theorem waitMark (c : Settings) (repairingBefore eligibleBefore : Bool) (h : AuditAt s s.resync.wait)
    (hcounted : AuditAt s (s.resync.wait + 1) ∨ c.silenceLimit ≤ s.resync.waitAfter eligibleBefore) :
    AuditAt (s.waitMark c repairingBefore eligibleBefore)
      (s.waitMark c repairingBefore eligibleBefore).resync.wait := by
  rcases s.waitMark_cases c repairingBefore eligibleBefore with ⟨-, -, -, heq⟩ | ⟨-, -, hbelow, heq⟩ | heq <;> rw [heq]
  · exact AuditAt.repaired (s := { s with resync := { s.resync with epochBlock := false } }) _ h _
  · have hle : s.resync.waitAfter eligibleBefore ≤ s.resync.wait + 1 := by
      unfold ResyncUnit.waitAfter
      split <;> omega
    exact AuditParts.wait_mono (hcounted.resolve_right (Nat.not_le.mpr hbelow)) hle
  · exact h

theorem stationMark_window (s : State) :
    s.stationMark.members.window = s.members.window ∧ s.stationMark.timer.epoch = s.timer.epoch := by
  unfold State.stationMark
  split <;> simp

theorem storeMark_window (s : State) (c : Settings) (line : Nat) (adopted : Epoch) (offset : Int) :
    (s.storeMark c line adopted offset).members.window = s.members.window := by
  have hbuild : ∀ (m : Membership) digest, (m.buildRecord digest).window = m.window := fun m digest => by
    rcases m.buildRecord_cases digest with heq | ⟨w, -, ⟨-, heq⟩ | ⟨-, heq⟩⟩ <;> rw [heq]
  have happly : ∀ (t : State) torn, (t.applyClosed torn).members.window = t.members.window := fun t torn => by
    rcases t.applyClosed_cases torn with ⟨-, heq⟩ | ⟨g, -, heq⟩ <;> simp [heq, hbuild]
  unfold State.storeMark State.closeGeneration
  dsimp only
  repeat' split
  all_goals simp [happly]

theorem waitMark_window (s : State) (c : Settings) (repairingBefore eligibleBefore : Bool) :
    (s.waitMark c repairingBefore eligibleBefore).members.window = s.members.window := by
  rcases s.waitMark_cases c repairingBefore eligibleBefore with ⟨-, -, -, heq⟩ | ⟨-, -, -, heq⟩ | heq <;> simp [heq]

theorem memberMark_wait (s : State) (c : Settings) (old : Option Epoch) (adopted : Epoch) :
    (s.memberMark c old adopted).resync.wait ≤ s.resync.wait := by
  have hclose : ∀ (t : State) w, (t.closeWindow w).resync.wait ≤ t.resync.wait := fun t w => by
    rcases t.closeWindow_cases w with ⟨-, -, heq⟩ | heq <;> simp [heq, ResyncUnit.enterRepair]
  have hwindow : ∀ t : State, (t.windowMark c adopted).resync.wait ≤ t.resync.wait := fun t => by
    unfold State.windowMark
    repeat' split
    · exact hclose t _
    · exact Nat.le_refl _
    · exact hclose t _
    · exact Nat.le_refl _
    · exact Nat.le_refl _
  cases old with
  | none =>
    simp only [State.memberMark]
    split <;> exact Nat.le_refl _
  | some old => exact hwindow (State.checkSilence { s with members := s.members.renumber s.rank? old adopted } c adopted)

/-- The timer and the store leave the wait and the window; the window's count keeps pace with the provider wait, unless the
wait came first and ended the repair. -/
theorem takeMark (c : Settings) (adopted : Epoch) (h : AuditAt s s.resync.wait) :
    AuditAt (s.takeMark c adopted) (s.takeMark c adopted).resync.wait := by
  have hstore : ∀ {t : State} line offset, AuditAt t t.resync.wait →
      AuditAt (t.storeMark c line adopted offset) (t.storeMark c line adopted offset).resync.wait :=
    fun line offset ht => by simpa using ht.storeMark c line adopted offset
  have hmembers : ∀ {t : State}, AuditAt t t.resync.wait → t.timer.epoch.isSome = true →
      t.members.window = s.members.window →
      AuditAt (t.stationMark.memberMark c s.timer.epoch adopted)
        ((t.stationMark.memberMark c s.timer.epoch adopted).resync.wait + 1) := fun {t} ht hepoch hwindow => by
    obtain ⟨hwindow', hepoch'⟩ := stationMark_window t
    refine AuditParts.wait_mono (ht.stationMark.memberMark c (old := s.timer.epoch) adopted (by rwa [hepoch'])
      fun hw => h.epoch (by rwa [hwindow', hwindow] at hw)) ?_
    exact Nat.succ_le_succ (memberMark_wait ..)
  obtain ⟨htimer, hepoch⟩ := h.timerMark c adopted
  have htimer' : AuditAt (s.timerMark c adopted) (s.timerMark c adopted).resync.wait := by simpa using htimer
  have hrun : AuditAt (s.run (s.markActions c adopted)) (s.run (s.markActions c adopted)).resync.wait := by
    rcases s.markActions_cases c adopted with heq | ⟨hpromotes, heq⟩
    · rw [heq]
      have hcounted := hmembers (hstore s.timer.line (offsetAt c s.timer.phase s.timer.line) htimer') (by simpa using hepoch)
        (by simp [storeMark_window])
      exact AuditAt.waitMark _ _ _ (AuditParts.wait_mono hcounted (Nat.le_succ _)) (.inl hcounted)
    · have hpromote : c.silenceLimit ≤ s.resync.waitAfter s.anyEligible := by
        simp only [State.promotes, Bool.and_eq_true, decide_eq_true_eq] at hpromotes
        exact hpromotes.2
      have hwait : ∀ {t : State}, AuditAt t t.resync.wait → t.resync = s.resync →
          AuditAt (t.waitMark c s.station.state.repairing s.anyEligible)
            (t.waitMark c s.station.state.repairing s.anyEligible).resync.wait :=
        fun ht hresync => ht.waitMark _ _ _ (.inr (by rwa [hresync]))
      rcases heq with heq | heq <;> rw [heq]
      · exact AuditParts.wait_mono (hmembers (hstore _ _ (hwait htimer' (by simp))) (by simpa using hepoch)
          (by simp [storeMark_window, waitMark_window])) (Nat.le_succ _)
      · exact AuditParts.wait_mono (hmembers (hwait (hstore _ _ htimer') (by simp)) (by simpa using hepoch)
          (by simp [storeMark_window, waitMark_window])) (Nat.le_succ _)
  have hrepeat : ((s.run (s.markActions c adopted)).repeatRequest c adopted).resync.wait =
      (s.run (s.markActions c adopted)).resync.wait := by
    unfold State.repeatRequest
    split <;> rfl
  have hfinal : AuditAt (s.takeMark c adopted) (s.run (s.markActions c adopted)).resync.wait :=
    hrun.congr (by simp [State.takeMark, Membership.SameAudit]) (by simp [State.takeMark]) (by simp [State.takeMark])
      (by simp [State.takeMark]) (by simp [State.takeMark])
  exact hrepeat ▸ hfinal

end AuditAt

/-! ### Every command -/

theorem auditAt_reset (choices : Nat) (pending : List Instr) :
    AuditAt { State.reset with choices := choices, pending := pending } 0 :=
  AuditParts.cleared Membership.reset ..

theorem auditAt_countLine {s : State} (c : Settings) (h : AuditAt s s.resync.wait) :
    AuditAt (s.countLine c) (s.countLine c).resync.wait := by
  have hline : AuditAt (s.beginLine c (s.timer.line + 1)) s.resync.wait := h
  have hresync : (s.countLine c).resync = s.resync := by simp
  rw [hresync]
  by_cases hblank : s.timer.line + 1 = c.activeLines
  · exact (hline.applyClosed false).1.congr (by simp [State.countLine, hblank, Membership.SameAudit])
      (by simp [State.countLine, hblank]) (by simp [State.countLine, hblank]) (by simp [State.countLine, hblank])
      (by simp [State.countLine, hblank])
  · exact hline.congr (by simp [State.countLine, hblank, Membership.SameAudit])
      (by simp [State.countLine, hblank]) (by simp [State.countLine, hblank]) (by simp [State.countLine, hblank])
      (by simp [State.countLine, hblank])

theorem auditAt_endFrame {s : State} (c : Settings) (h : AuditAt s s.resync.wait) :
    AuditAt (s.endFrame c) (s.endFrame c).resync.wait := by
  have hbase : AuditAt { s.beginLine c 0 with timer := (s.beginLine c 0).timer.frameEnd (s.beginLine c 0).active }
      s.resync.wait :=
    h.congr ⟨rfl, rfl, rfl, rfl⟩ rfl rfl rfl (EpochTimer.frameEnd_frame _ _).1
  have hlisten : ∀ t : State, AuditAt t t.resync.wait → AuditAt (t.listen c) t.resync.wait := fun t ht => by
    unfold State.listen
    split
    next hfounds =>
      exact ((AuditParts.inStep ht _).with_known).congr (by simp [Membership.SameAudit])
    next => split <;> exact ht
  have hresync : (s.endFrame c).resync = s.resync := by simp
  rw [hresync]
  exact (hlisten _ hbase).congr (by simp [State.endFrame, Membership.SameAudit]) (by simp [State.endFrame])
    (by simp [State.endFrame]) (by simp [State.endFrame]) (by simp [State.endFrame])

theorem auditAt_fieldFault {s : State} (h : AuditAt s s.resync.wait) :
    AuditAt s.fieldFault s.fieldFault.resync.wait := by
  unfold State.fieldFault State.receiveErrorAndAbort
  dsimp only
  split
  · have herror := AuditAt.receiveError
      (s := { s with command := s.command.batchAborted.1, bus := { s.bus with chosen := none } }) h
    exact herror.same (by simp [Membership.SameAudit]) (by simp) (by simp) (by simp) (by simp) (by simp)
  · exact h.receiveError.outcomeAborted

theorem auditAt_move {c : Instr} {s t : State} (hmove : Move s c t) (hrepair : RepairSound s)
    (h : AuditAt s s.resync.wait) : AuditAt t t.resync.wait := by
  obtain ⟨-, -, hsent⟩ := (repairSound_iff s).mp hrepair
  cases hmove with
  | reset => exact auditAt_reset _ _
  | configured hstate hread => exact h.of_inactive (by rw [hstate]; rfl) rfl _ _
  | configFaulted hstate => exact h.of_inactive (by rw [hstate]; rfl) rfl _ _
  | pixelWord payload =>
    exact h.same (by simp [Membership.SameAudit]) (by simp) (by simp) (by simp) (by simp) (by simp)
  | rejoin payload tag hstate => exact AuditParts.cleared Membership.reset ..
  | @countLine c hconfig hrunning hline => exact auditAt_countLine c h
  | @endFrame c hconfig hrunning hline => exact auditAt_endFrame c h
  | fieldFault hrow hr => exact auditAt_fieldFault h
  | mark others hconfig hrunning hr hfield => exact h.takeMark _ _
  | select hr hfield hdrives =>
    exact h.same (by simp [Membership.SameAudit]) (by simp) (by simp) (by simp) (by simp) (by simp)
  | endSlot hrow hr => exact h.slotOutcome
  | message read hr hslot => exact (h.takeMessage _ read fun m hm => (hsent m hm).2.2).slotOutcome
  | idle | seekGap | idleGap | dominantLevel | driveStartPulse | followRound | originField | markSlot | reserve
  | transmit | mismatch | commandWord | answer | accept | withdraw | recordSent | damageSlot => exact h

/-- Settles O60: every move keeps the relations of the own audit; the repair's are kept beside them. -/
theorem stepsKeepTheAuditSound : Obligations.StepsKeepTheAuditSound := fun s t hstep hrepair haudit =>
  ((auditSound_iff t).mpr (step_keeps (Inv := fun s => RepairSound s ∧ AuditAt s s.resync.wait) (fun _ _ h => h)
    (fun hmove h => ⟨repairSound_move hmove h.1, auditAt_move hmove h.1 h.2⟩) hstep
    ⟨hrepair, (auditSound_iff s).mp haudit⟩).2)

end Sys2Proof.Machine
end

section
/-! SUPPORT. The words of the statements beside the operations of the model: what `Sys2Proof.Safety` writes from the tables of
the rules is what the operation does. Each is said once here, and the statements are proved through it. -/

namespace Sys2Proof.Machine

-- One thread, as for the tests: proofs elaborated side by side would exceed the build's memory limit.
set_option Elab.async false

open Sys2Proof.Safety

/-! ### The membership table and the resync unit -/

theorem withOwnEntry_eq (s : State) (f : Peer → Peer) : withOwnEntry s f = s.members.updateOwn s.rank? f := by
  unfold withOwnEntry State.rank?
  cases s.loader.config <;> rfl

theorem emptiedResync_eq (r : ResyncUnit) :
    emptiedResync r true false = r.enterRepair ∧ emptiedResync r false true = r.leaveRepair ∧
      emptiedResync r false false = r.mute := ⟨rfl, rfl, rfl⟩

theorem divergedState_eq (s : State) (cause : DivergeCause) : divergedState s cause = s.diverge cause := by
  unfold divergedState State.diverge
  rw [withOwnEntry_eq]
  cases s.members.stage <;> rfl

theorem repairedState_eq (s : State) (event : Event) : repairedState s event = s.repaired event := by
  unfold repairedState State.repaired
  rw [withOwnEntry_eq]
  rfl

theorem afterReceiveError_eq (s : State) : afterReceiveError s = s.receiveError := by
  unfold afterReceiveError State.receiveError
  rw [divergedState_eq]
  rfl

theorem removeBehind_zero (accounts : List Account) :
    removeBehind 0 accounts = accounts.map fun a => a.remove a.remaining := by
  induction accounts with
  | nil => rfl
  | cons a rest ih => simp [removeBehind, ih]

theorem mutedState_eq {s : State} (cause : MuteCause) (h : s.station.state ≠ .muted) :
    mutedState s cause = s.mute cause := by
  unfold mutedState State.mute
  rw [if_neg h, withOwnEntry_eq]
  simp only [CommandUnit.dropAll, removeBehind_zero, List.map_map]
  cases hdrive : s.bus.drive <;> simp [BusController.silence, hdrive, Drive.silenced] <;> exact ⟨rfl, rfl, rfl⟩

theorem membersAfterApply_eq (m : Membership) (digest : Digest) :
    membersAfterApply m digest = m.buildRecord digest := by
  unfold membersAfterApply Membership.buildRecord
  cases hwindow : m.window with
  | none => cases m.stage with
    | awaitingApply due => cases due <;> rfl
    | none | pending _ | sent _ => rfl
  | some w => cases m.stage with
    | awaitingApply due => cases due <;> simp
    | none | pending _ | sent _ => simp

/-! ### The controller -/

theorem busAfterSlot_eq (b : BusController) : busAfterSlot b = b.endSlot := by
  unfold busAfterSlot BusController.endSlot BusController.endRound
  cases b.schedule.getLast? <;> rfl

theorem outsideRound_eq (b : BusController) (round : RoundState) :
    outsideRound b round = { b.leaveRound round with chosen := none } := rfl

theorem adoptedEpoch_eq (s : State) (others : Epoch) : adoptedEpoch s others = s.busEpoch others := by
  unfold adoptedEpoch ownEpochField State.busEpoch State.epochDrive State.drives
  cases s.timer.epoch with
  | none => simp
  | some e => by_cases h : (s.active && s.bus.driving) = true <;> simp [h]

theorem drives_iff (s : State) : s.drives = true ↔ Drives s := by
  simp [State.drives]

/-! ### The mark -/

theorem markOffset_eq (c : Settings) (phase : FramePhase) (n : Nat) : markOffset c phase n = offsetAt c phase n := by
  cases phase <;> simp [markOffset, offsetAt]

theorem auditEpoch_iff (c : Settings) (e : Epoch) : auditEpoch c e = true ↔ e.toNat % c.auditInterval = 0 := by
  simp [auditEpoch]

theorem actAll_eq (acts : List (State → State)) (s : State) : actAll acts s = s.run acts := rfl

theorem windowOpened_eq (s : State) (adopted : Epoch) : windowOpened s adopted = s.openWindow adopted := by
  unfold windowOpened State.openWindow Membership.openWindow
  cases s.station.state <;> cases s.store.closed <;> simp <;> rfl

/-! ### The tally (R93, R99) -/

theorem mem_tallyEntries {tally : Vector (Option Digest) 16} {r : Rank} {d : Digest} :
    (r, d) ∈ tallyEntries tally ↔ atRank tally r = some d := by
  simp only [tallyEntries, List.mem_filterMap, Option.map_eq_some_iff, Prod.mk.injEq]
  constructor
  · rintro ⟨q, -, d', hd, rfl, rfl⟩
    exact hd
  · exact fun hd => ⟨r, mem_allRanks r, d, hd, rfl, rfl⟩

/-- The entries stand in ascending rank. -/
theorem tallyEntries_ascending (tally : Vector (Option Digest) 16) :
    (tallyEntries tally).Pairwise fun e e' => e.1.toNat < e'.1.toNat := by
  have hranks : allRanks.Pairwise fun r q => r.toNat < q.toNat := by simp [allRanks, List.range_succ]
  refine hranks.filterMap _ fun r q hlt e he e' he' => ?_
  simp only [Option.map_eq_some_iff] at he he'
  obtain ⟨d, -, rfl⟩ := he
  obtain ⟨d', -, rfl⟩ := he'
  exact hlt

/-- A tally with an entry has a reference: an entry whose digest is held by the most. -/
theorem referenceDigest_isSome (tally : Vector (Option Digest) 16) :
    (referenceDigest (tallyEntries tally)).isSome = (List.finRange 16).any fun r => tally[r] ≠ none := by
  rw [Bool.eq_iff_iff]
  simp only [referenceDigest, Option.isSome_map, List.find?_isSome, List.any_eq_true, List.all_eq_true,
    decide_eq_true_eq, List.mem_finRange, true_and]
  constructor
  · rintro ⟨⟨r, d⟩, he, -⟩
    rw [mem_tallyEntries] at he
    exact ⟨r.toFin, fun hnone => by rw [atRank] at he; exact absurd (he.symm.trans hnone) nofun⟩
  · rintro ⟨r, hr⟩
    obtain ⟨d, hd⟩ := Option.ne_none_iff_exists'.mp hr
    have hmem : (BitVec.ofFin r, d) ∈ (tallyEntries tally).toFinset := by
      rw [List.mem_toFinset, mem_tallyEntries]
      exact hd
    obtain ⟨e, he, hmax⟩ := (tallyEntries tally).toFinset.exists_max_image
      (fun e => holders (tallyEntries tally) e.2) ⟨_, hmem⟩
    exact ⟨e, List.mem_toFinset.mp he, fun e' he' => hmax e' (List.mem_toFinset.mpr he')⟩

theorem membersAfterClose_eq (m : Membership) : membersAfterClose m = m.decide.clearAudit := rfl

theorem windowClosed_eq (s : State) (w : AuditWindow) : windowClosed s w = s.closeWindow w := by
  have hlate : (if (s.members.stage ≠ .none && s.members.stage ≠ .sent .digest &&
      s.members.stage ≠ .sent .heartbeat) = true then s.port.enqueue (.event (.auditLate w.epoch)) else s.port) =
      s.port.enqueueAll (s.members.lateRecords w) := by
    unfold Membership.lateRecords
    cases s.members.stage with
    | sent kind => cases kind <;> simp
    | none | pending _ | awaitingApply _ => simp
  unfold windowClosed State.closeWindow
  simp only [hlate, divergedState_eq, membersAfterClose_eq, Membership.ownMismatch, referenceDigest_isSome, State.rank?]
  cases s.loader.config with
  | none => simp
  | some c =>
    refine if_congr ?_ rfl rfl
    simp only [Option.map_some, Option.elim_some, Bool.and_eq_true, decide_eq_true_eq, atRank]
    exact ⟨fun ⟨⟨hstate, htally⟩, hverdict⟩ => ⟨⟨htally, decide_eq_true hverdict⟩, hstate⟩,
      fun ⟨⟨htally, hverdict⟩, hstate⟩ => ⟨⟨hstate, htally⟩, of_decide_eq_true hverdict⟩⟩

/-! ### The pixel path -/

theorem lineStart_eq (c : Settings) (line ended : Nat) (p : PixelPath) :
    p.lineStart c line ended = (pixelAtLineStart c line p, pixelRecords c line ended p) := by
  have hframe : (if line = 0 then p.newFrame else p) =
      ⟨p.fill, p.shown, p.shortFlag && line ≠ 0, p.longFlag && line ≠ 0⟩ := by
    by_cases hline : line = 0 <;> simp [hline, PixelPath.newFrame]
  unfold PixelPath.lineStart pixelAtLineStart pixelRecords LineBuffer.count
  rw [hframe]
  generalize (p.shortFlag && decide (line ≠ 0)) = short
  generalize (p.longFlag && decide (line ≠ 0)) = long
  by_cases hactive : line < c.activeLines
  · by_cases hfull : p.fill.length < c.width <;>
      cases short <;> simp [hactive, hfull, PixelPath.swap, PixelPath.short]
  · by_cases hempty : p.fill = [] <;>
      cases long <;> simp [hactive, hempty, PixelPath.discard, PixelPath.long]

end Sys2Proof.Machine
end

section
/-! Steps, configuration, line starts and frame ends (spec/03_epochs_and_frame_timing.md, spec/08_station_lifecycle.md;
R33 to R36, R125 to R129, R150, R158, R159), and the invariants at reset. -/

namespace Sys2Proof.Machine

-- One thread, as for the tests: proofs elaborated side by side would exceed the build's memory limit.
set_option Elab.async false

open Sys2Proof.Safety

/-- Settles O1: by the definition of a step. -/
theorem stepRunsFrontCommand : Obligations.StepRunsFrontCommand :=
  ⟨fun _ _ _ => rfl, fun s h => by rw [step, h]⟩

/-- Settles O54: the invariants of a station that holds nothing, evaluated. -/
theorem invariantsHoldAtReset : Obligations.InvariantsHoldAtReset :=
  ⟨WallStore.Kept.reset WallStore.digestTrue_kept, WallStore.Kept.reset WallStore.canonical_kept,
    by decide, by decide, timingSound_reset 0 [], epochSound_reset 0 [], busSound_reset 0 [], repairSound_reset 0 [],
    (auditSound_iff _).mpr (auditAt_reset 0 [])⟩

theorem activeLines_pos {c : Settings} (h : settingsInRange c = true) : 0 < c.activeLines := by
  simp only [settingsInRange, Bool.and_eq_true, decide_eq_true_eq] at h
  omega

/-- Settles O5: the record's outcome decides; a valid record has an active line 0. -/
theorem configurationTakesEffect : Obligations.ConfigurationTakesEffect := by
  intro s read
  refine ⟨fun c hstate hread => ?_, fun reason hstate hread => ?_, fun hstate => ?_⟩
  · have hactive := activeLines_pos (settingsInRange_of_valid hread)
    simp [exec, execConfigurationComplete, hstate, hread, State.configured, cueOf, hactive, PixelPath.newFrame,
      PixelPath.swap]
  · simp [exec, execConfigurationComplete, hstate, hread, State.configFaulted]
  · simp [exec, execConfigurationComplete, hstate]

/-! ### Free orders -/

/-- Two blocks queue their records in either order: what the second does besides, it does whatever the queue holds. -/
theorem State.eitherOrder_records {s : State} {records rs : List Record} {queues : Bool} {act : State → State}
    (hport : (act s).port = s.port.enqueueAll rs)
    (hport' : (act (s.reportAll records)).port = (s.port.enqueueAll records).enqueueAll rs)
    (hchoices : (act s).choices = s.choices) (hqueues : queues = true ↔ rs ≠ []) :
    ∃ port, QueuedInEitherOrder s.port records rs port ∧
      s.eitherOrder records queues act = { act s with port := port, choices := s.choices + choicesFor records rs } := by
  rcases s.eitherOrder_cases records queues act with ⟨hnone, heq⟩ | ⟨hrecords, hq, port, hport'', heq⟩
  · have hfree : choicesFor records rs = 0 := by
      rw [choicesFor, if_pos (hnone.imp id fun hf => by simpa [hf] using hqueues)]
    refine ⟨(s.port.enqueueAll rs).enqueueAll records, .inr rfl, ?_⟩
    rw [heq, hfree, Nat.add_zero, ← hchoices, ← hport]
    rfl
  · have hone : choicesFor records rs = 1 := by
      rw [choicesFor, if_neg (not_or.mpr ⟨hrecords, hqueues.mp hq⟩)]
    refine ⟨port, ?_, by rw [heq, hone]⟩
    rcases hport'' with rfl | rfl
    · exact .inl hport'
    · exact .inr (by rw [hport])

/-! ### Lines and frames -/

theorem State.lineRecords_eq (s : State) (c : Settings) (line : Nat) :
    s.lineRecords c line = pixelRecords c line s.timer.line s.pixel := by
  rw [State.lineRecords, lineStart_eq]

theorem State.beginLine_eq (s : State) (c : Settings) (line : Nat) :
    s.beginLine c line =
      { s with
        timer := { s.timer with line := line }
        port := cuedPort s c line
        pixel := pixelAtLineStart c line s.pixel } := by
  rw [State.beginLine, lineStart_eq]
  rfl

theorem after_lineStart {s : State} {c : Settings} (hconfig : s.loader.config = some c) :
    s.after .lineStart = if s.timer.running = true ∧ s.timer.line + 1 < c.totalLines then s.countLine c else s := by
  simp [State.after, exec, execLineStart, hconfig]

theorem after_naturalFrameEnd {s : State} {c : Settings} (hconfig : s.loader.config = some c) :
    s.after .naturalFrameEnd =
      if s.timer.running = true ∧ s.timer.line + 1 = c.totalLines then s.endFrame c else s := by
  simp [State.after, exec, execNaturalFrameEnd, hconfig]

/-- Settles O18: with nothing to apply at the blank start, a line begins with its cue and the pixel path's records. -/
theorem linesBeginByCounting : Obligations.LinesBeginByCounting := by
  intro s c hconfig
  simp only [exec_next_iff, after_lineStart hconfig]
  refine ⟨fun hrunning hline hclosed => ?_, fun _ hline => ?_, fun hstopped => ?_⟩
  · rw [if_pos ⟨hrunning, hline⟩, State.countLine, State.lineRecords_eq, State.beginLine_eq]
    by_cases hblank : s.timer.line + 1 = c.activeLines
    · simp [State.eitherOrder, hblank, hclosed hblank, State.applyClosed, State.reportAll, portAtLineStart, cuedPort]
    · simp [State.eitherOrder, hblank, State.reportAll, portAtLineStart, cuedPort]
  · rw [if_neg fun h => absurd hline h.2.ne]
  · rw [if_neg fun h => by simp [hstopped] at h]

/-- A store with a true digest keeps it true as it writes (R7, R10). -/
theorem WallStore.writeAll_eq {st : WallStore} (items : List Item) (hdigest : st.digest = st.wall.digest) :
    st.writeAll items =
      { st with
        wall := items.foldl WallState.write st.wall
        digest := (items.foldl WallState.write st.wall).digest } := by
  obtain ⟨hwall, hopened, hclosed, hstaging⟩ := st.writeAll_frame items
  have htrue : (st.writeAll items).digest = (st.writeAll items).wall.digest := WallStore.writeAll_digestTrue items hdigest
  rw [hwall] at htrue
  generalize st.writeAll items = st' at *
  cases st'
  simp only [WallStore.mk.injEq]
  exact ⟨hwall, htrue, hopened, hclosed, hstaging⟩

/-- An apply writes the generation's entries and keeps a true digest true (R7, R10, R25). -/
theorem WallStore.applyGeneration_eq {st : WallStore} {g : ClosedGeneration} (hg : CanonicalGeneration g.items)
    (hdigest : st.digest = st.wall.digest) :
    ∃ wall, WritesEntries st.wall wall g.items ∧
      st.applyGeneration g = { st with wall := wall, digest := wall.digest, closed := none } := by
  refine ⟨_, writesEntries_foldl (CanonicalGeneration.targets_ne hg) st.wall, ?_⟩
  rw [WallStore.applyGeneration, WallStore.writeAll_eq g.items hdigest]

/-- Settles O19: the line's start and the apply are two blocks' acts in one event. -/
theorem blankStartAppliesTheGeneration : Obligations.BlankStartAppliesTheGeneration := by
  intro s c g hconfig hrunning hline hblank hclosed hg hdigest lineRecords applied
  obtain ⟨wall, hwrites, happly⟩ := WallStore.applyGeneration_eq hg hdigest
  obtain ⟨port, hport, heq⟩ := State.eitherOrder_records (s := s.beginLine c (s.timer.line + 1)) (records := lineRecords)
    (rs := applied) (queues := true) (act := fun s => s.applyClosed false)
    (by simp [State.applyClosed, hclosed, applyRecords, applied])
    (by simp [State.applyClosed, hclosed, applyRecords, applied, State.reportAll]) (by simp) (by simp [applied])
  refine ⟨wall, port, hwrites, ?_, ?_⟩
  · rwa [State.beginLine_eq] at hport
  · have hcount : s.countLine c =
        (s.beginLine c (s.timer.line + 1)).eitherOrder lineRecords true fun s => s.applyClosed false := by
      simp [State.countLine, hblank, hclosed, State.lineRecords_eq, lineRecords]
    rw [exec_next_iff, after_lineStart hconfig, if_pos ⟨hrunning, hline⟩, hcount, heq]
    simp only [State.applyClosed, State.beginLine_eq, hclosed, happly, membersAfterApply_eq]

theorem EpochTimer.frameEnd_eq (t : EpochTimer) (active : Bool) :
    t.frameEnd active =
      { t with
        phase := if t.phase = .covered then .waiting else .ended
        markPending := t.markPending || (t.phase ≠ .covered && active) } := by
  cases hphase : t.phase <;> simp [EpochTimer.frameEnd, hphase]

/-- The station at a natural frame end, before the station controller counts it. -/
def State.framed (s : State) (c : Settings) : State :=
  { s with
    timer :=
      { s.timer with
        line := 0
        phase := if s.timer.phase = .covered then .waiting else .ended
        markPending := s.timer.markPending || (s.timer.phase ≠ .covered && s.active) }
    port := cuedPort s c 0
    pixel := pixelAtLineStart c 0 s.pixel }

theorem State.endFrame_eq (s : State) (c : Settings) :
    s.endFrame c =
      (s.framed c).eitherOrder (pixelRecords c 0 s.timer.line s.pixel) (s.founds c) fun s => s.listen c := by
  simp only [State.endFrame, State.lineRecords_eq, State.beginLine_eq, EpochTimer.frameEnd_eq]
  rfl

/-- Settles O20: the line begins, the phase moves, and a LISTENING station counts. -/
theorem frameEndsMoveThePhase : Obligations.FrameEndsMoveThePhase := by
  intro s c hconfig hrunning hline hcount
  have hfounds : s.founds c = false := by
    simp only [State.founds, Bool.and_eq_false_iff, decide_eq_false_iff_not]
    by_cases hl : s.station.state = .listening
    · exact .inr (Nat.not_le.mpr (hcount hl))
    · exact .inl hl
  have hframed : (s.framed c).founds c = false := hfounds
  rw [exec_next_iff, after_naturalFrameEnd hconfig, if_pos ⟨hrunning, hline⟩, State.endFrame_eq, hfounds]
  have hlisten : (s.framed c).listen c =
      { s.framed c with
        station :=
          if s.station.state = .listening then { s.station with listenCount := s.station.listenCount + 1 }
          else s.station } := by
    unfold State.listen
    rw [hframed]
    by_cases hl : s.station.state = .listening <;> simp [State.framed, hl]
  simp only [State.eitherOrder, Bool.not_false, Bool.or_true, if_true, hlisten]
  rfl

/-- Settles O21: founding and the line's start are two blocks' acts in one event. -/
theorem foundingTakesEpochZero : Obligations.FoundingTakesEpochZero := by
  intro s c hconfig hrunning hline hstate hcount lineRecords
  have hfounds : s.founds c = true := by simp [State.founds, hstate, hcount]
  have hlisten : ∀ records, ((s.framed c).reportAll records).listen c = ((s.framed c).reportAll records).found := by
    intro records
    have hframed : ((s.framed c).reportAll records).founds c = true := hfounds
    rw [State.listen, if_pos hframed]
  obtain ⟨port, hport, heq⟩ := State.eitherOrder_records (s := s.framed c) (records := lineRecords)
    (rs := [.event .founded]) (queues := true) (act := fun s => s.listen c)
    (congrArg State.port (hlisten [])) (congrArg State.port (hlisten lineRecords))
    ((congrArg State.choices (hlisten [])).trans rfl) (by simp)
  refine ⟨port, hport, ?_⟩
  rw [exec_next_iff, after_naturalFrameEnd hconfig, if_pos ⟨hrunning, hline⟩, State.endFrame_eq, hfounds, heq]
  have hfound : (s.framed c).listen c = (s.framed c).found := hlisten []
  rw [hfound, withOwnEntry_eq]
  rfl

end Sys2Proof.Machine
end

section
/-! The bus outside the data phase and the send selection (spec/04_the_wall_bus.md 4.2 and 4.3, spec/05 5.2; R51 to R57, R65,
R68, R74, R75, R92, R110). -/

namespace Sys2Proof.Machine

-- One thread, as for the tests: proofs elaborated side by side would exceed the build's memory limit.
set_option Elab.async false

open Sys2Proof.Safety

/-! ### Ranks in order -/

theorem allRanks_ascending : allRanks.Pairwise fun r q => r.toNat < q.toNat := by
  simp [allRanks, List.range_succ]

/-- The first rank a test takes is the lowest it takes. -/
theorem find_allRanks {p : Rank → Bool} {r : Rank} :
    allRanks.find? p = some r ↔ p r = true ∧ ∀ q, p q = true → r.toNat ≤ q.toNat := by
  have hlowest : ∀ {r}, allRanks.find? p = some r → p r = true ∧ ∀ q, p q = true → r.toNat ≤ q.toNat := by
    intro r hr
    obtain ⟨hp, before, after, heq, hbefore⟩ := List.find?_eq_some_iff_append.mp hr
    refine ⟨hp, fun q hq => ?_⟩
    have hmem := mem_allRanks q
    have hascending := allRanks_ascending
    rw [heq] at hmem hascending
    rcases List.mem_append.mp hmem with hb | ha
    · exact absurd hq (by simpa using hbefore q hb)
    · rcases List.mem_cons.mp ha with rfl | ha
      · exact Nat.le_refl _
      · exact ((List.pairwise_cons.mp (List.pairwise_append.mp hascending).2.1).1 q ha).le
  refine ⟨hlowest, fun ⟨hp, hle⟩ => ?_⟩
  obtain ⟨q, hq⟩ := Option.isSome_iff_exists.mp (List.find?_isSome.mpr ⟨r, mem_allRanks r, hp⟩)
  obtain ⟨hpq, hq'⟩ := hlowest hq
  rw [hq, BitVec.eq_of_toNat_eq (Nat.le_antisymm (hq' r hp) (hle q hpq))]

/-! ### The send selection (R74, R75) -/

theorem eligibleEntry_eq (s : State) (r : Rank) : eligibleEntry s r = s.eligible r := rfl

theorem isProvider_eq (s : State) : isProvider s = s.provider := by
  unfold isProvider State.provider
  cases hconfig : s.loader.config with
  | none => simp [State.rank?, hconfig]
  | some c =>
    have hrank : s.rank? = some c.rank := by simp [State.rank?, hconfig]
    have hlowest : s.lowestEligible = some c.rank ↔ eligibleEntry s c.rank = true ∧
        ∀ r : Fin 16, c.rank.toNat ≤ r.val ∨ eligibleEntry s (BitVec.ofFin r) = false := by
      rw [State.lowestEligible, find_allRanks]
      refine and_congr Iff.rfl ⟨fun h r => ?_, fun h q hq => ?_⟩
      · rw [or_iff_not_imp_right, Bool.not_eq_false]
        exact h (BitVec.ofFin r)
      · exact (h q.toFin).resolve_right fun hf => by rw [← eligibleEntry_eq] at hq; exact absurd (hf.symm.trans hq) nofun
    rw [Bool.eq_iff_iff]
    simp [hrank, hlowest, and_assoc]

theorem someRequester_iff (s : State) : someRequester s = true ↔ s.requesters ≠ [] := by
  simp only [someRequester, State.requesters, List.any_eq_true, List.mem_finRange, true_and, ne_eq,
    List.filter_eq_nil_iff, not_forall, not_not]
  exact ⟨fun ⟨r, hr⟩ => ⟨BitVec.ofFin r, mem_allRanks _, hr⟩, fun ⟨r, _, hr⟩ => ⟨r.toFin, hr⟩⟩

/-- The table of R74 with R75's alternation is the model's send selection. -/
theorem selection_eq (s : State) : selection s = s.candidate := by
  unfold selection State.candidate
  have hpending : (s.members.stage = .pending .digest || s.members.stage = .pending .heartbeat) =
      s.members.stage.isPending := by
    cases s.members.stage with
    | pending kind => cases kind <;> rfl
    | none | awaitingApply _ | sent _ => rfl
  have hrequester : someRequester s = decide (s.requesters ≠ []) := by
    rw [Bool.eq_iff_iff, decide_eq_true_iff]
    exact someRequester_iff s
  rw [hpending, isProvider_eq, hrequester]
  repeat' refine if_congr Iff.rfl rfl ?_
  cases hblock : s.provider && decide (s.requesters ≠ []) <;>
    cases s.store.closed <;> cases s.command.queue <;> cases s.command.lastWasBlock <;> simp

/-! ### Gaps, pulses and fields -/

/-- Settles O22: by the round state. -/
theorem gapsAndPulsesMoveTheRound : Obligations.GapsAndPulsesMoveTheRound := by
  intro s
  simp only [exec_next_iff]
  refine ⟨rfl, fun hround => ?_, fun hround => ?_, fun hgap hidle => ?_, ?_, fun hround => ?_, fun hround => ?_,
    fun hround => ?_, ?_⟩
  · simp [State.after, exec, execIdleGap, BusController.idleGap, hround]
  · by_cases hbelow : s.bus.recessive = .below <;>
      simp [State.after, exec, execIdleGap, BusController.idleGap, hround, hbelow]
    rw [← hround]
  · simp [State.after, exec, execIdleGap, BusController.idleGap, hgap, hidle]
  · cases hround : s.bus.round <;> simp [State.after, exec, execDominantLevel, BusController.restartCount, hround]
  · rcases hround with hround | hround | hround <;>
      simp [State.after, exec, execStartPulse, BusController.followRound, BusController.leaveRound, hround,
        recessiveField]
  · simp [exec, execStartPulse, execFieldFault, hround]
  · simp [State.after, exec, execStartPulse, hround]
  · simp only [State.after, exec, execDriveStartPulse, State.startReason, selection_eq]
    refine if_congr ?_ rfl rfl
    simp [and_assoc, Option.isSome_iff_ne_none]

/-- Settles O23: what the station drives is what the statement says it drives. -/
theorem fieldsAreWiredAnds : Obligations.FieldsAreWiredAnds := by
  intro s hround
  refine ⟨fun others hfield => ?_, fun others hfield => ?_⟩
  · simp [exec, execOriginField, BusController.atField, hround, hfield, State.originDrive, State.drives, recessiveField]
  · have hwired : wiredAnd others s.markDrive = .dominant ↔
        others = .dominant ∨ s.active = true ∧ s.bus.driving = true ∧ s.timer.markPending = true := by
      unfold State.markDrive State.drives
      cases others <;> cases s.active <;> cases s.bus.driving <;> cases s.timer.markPending <;> simp [wiredAnd]
    simp [exec, execMarkSlot, BusController.atField, hround, hfield, hwired]

/-- Settles O24: the selection is the first candidate; a station that does not drive makes none. -/
theorem sendSelectionTakesTheFirstCandidate : Obligations.SendSelectionTakesTheFirstCandidate := by
  intro s hround hfield
  have hexec : s.after .sendSelection = if s.drives = true then s.select else s := by
    simp [State.after, exec, execSendSelection, BusController.atField, hround, hfield]
  simp only [exec_next_iff, hexec, drives_iff]
  refine ⟨fun hdrives => ?_, fun hdrives => if_neg hdrives⟩
  rw [if_pos hdrives, State.select, selection_eq]
  cases s.candidate with
  | none => rfl
  | some kind => cases kind <;> rfl

/-! ### The schedule (R56) -/

theorem scheduleOf_ordered (origin : Rank) (field : BitVec 16) :
    (scheduleOf origin field).Pairwise fun a b => (a - origin).toNat < (b - origin).toNat := by
  refine List.Pairwise.filter _ (List.pairwise_map.mpr (allRanks_ascending.imp fun {r q} hlt => ?_))
  rwa [add_sub_cancel_left, add_sub_cancel_left]

/-- The reservation field as this station drives it, bit by bit (R56, R57). -/
theorem reservationDrive_bit (s : State) (r : Rank) : s.reservationDrive.getLsbD r.toNat = ownReservation s r := by
  unfold State.reservationDrive ownReservation State.rank? State.drives
  cases hconfig : s.loader.config with
  | none => simp
  | some c =>
    have hdrives : (s.active && s.bus.driving && s.bus.chosen.isSome) = true ↔
        Drives s ∧ s.bus.chosen ≠ none ∧ some c ≠ none := by
      simp [Option.isSome_iff_ne_none, and_assoc]
    have hbit : (~~~(1#16 <<< c.rank.toNat)).getLsbD r.toNat = decide (some c.rank ≠ some r) := by
      have hr := r.isLt
      by_cases h : c.rank = r
      · subst h
        simp
      · have hne : c.rank.toNat ≠ r.toNat := fun heq => h (BitVec.eq_of_toNat_eq heq)
        simp [h]
        omega
    simp only [Option.map_some]
    by_cases h : Drives s ∧ s.bus.chosen ≠ none ∧ some c ≠ none
    · rw [if_pos h, if_pos (hdrives.mpr h), hbit]
    · rw [if_neg h, if_neg (fun h' => h (hdrives.mp h'))]

/-- Settles O25: the schedule of a field, and the field that the statement's own part makes. -/
theorem reservationsMakeTheSchedule : Obligations.ReservationsMakeTheSchedule := by
  refine ⟨fun origin field => ⟨mem_scheduleOf_iff origin field, scheduleOf_ordered origin field⟩, ?_⟩
  intro s others own hround hfield hown
  have hdrive : own = s.reservationDrive := by
    refine BitVec.eq_of_getLsbD_eq fun i hi => ?_
    have hbit := (hown (BitVec.ofNat 4 i)).trans (reservationDrive_bit s (BitVec.ofNat 4 i)).symm
    simpa [Nat.mod_eq_of_lt hi] using hbit
  have hexec : s.after (.reservationField others) = { s with bus := s.bus.reserve (others &&& own) } := by
    rcases hfield with hfield | hfield <;>
      simp [State.after, exec, execReservationField, BusController.atField, hround, hfield, hdrive]
  rw [exec_next_iff, hexec, BusController.reserve]
  cases scheduleOf s.bus.belief (others &&& own) with
  | nil => rfl
  | cons r rest => rfl

/-- The records of a receive error (R67). -/
def divergedRecords (s : State) : List Record :=
  if s.station.state = .inStep then [.event (.diverged .receiveError)] else []

theorem State.receiveError_port (s : State) : s.receiveError.port = s.port.enqueueAll (divergedRecords s) := by
  unfold State.receiveError divergedRecords
  cases s.station.state <;> rfl

/-- A receive error does the same whatever the command unit and the chosen message. -/
theorem State.receiveError_with (s : State) (command : CommandUnit) (chosen : Option MessageKind) :
    State.receiveError { s with command := command, bus := { s.bus with chosen := chosen } } =
      { s.receiveError with command := command, bus := { s.receiveError.bus with chosen := chosen } } := by
  unfold State.receiveError
  cases s.station.state <;> rfl

theorem after_fieldFault {s : State} (hround : s.bus.round = .fields) : s.after .fieldFault = s.fieldFault := by
  simp [State.after, exec, execFieldFault, hround]

/-- Settles O26: the receive error and the outcome of the chosen message are two blocks' acts in one event. -/
theorem fieldFaultsDropOut : Obligations.FieldFaultsDropOut := by
  intro s hround diverged settled
  simp only [exec_next_iff, after_fieldFault hround, afterReceiveError_eq, State.fieldFault, State.receiveErrorAndAbort]
  by_cases hupdate : s.bus.chosen = some .update
  · obtain ⟨port, hport, heq⟩ := State.eitherOrder_records
      (s := { s with command := s.command.batchAborted.1, bus := { s.bus with chosen := none } })
      (records := settled) (rs := diverged) (queues := decide (s.station.state = .inStep)) (act := State.receiveError)
      (State.receiveError_port _) (State.receiveError_port _) (by simp) (by simp [diverged])
    refine ⟨port, hport.symm, ?_⟩
    have hchoices : choicesFor settled diverged = choicesFor diverged settled := by
      simp only [choicesFor, or_comm]
    simp only [hupdate, if_true]
    have hsettled : s.command.batchAborted.2 = settled := (if_pos hupdate).symm
    rw [hsettled, heq, hchoices, State.receiveError_with]
    rfl
  · have hbus : s.receiveError.bus.chosen ≠ some .update := by
      rwa [State.receiveError_bus]
    have hrelease : s.receiveError.outcomeAborted =
        { s.receiveError with bus := { s.receiveError.bus with chosen := none } } := by
      rcases s.receiveError.outcomeAborted_cases with ⟨h, -⟩ | ⟨-, heq⟩
      · exact absurd h hbus
      · exact heq
    have hsettled : settled = [] := if_neg hupdate
    refine ⟨s.receiveError.port, .inl ?_, ?_⟩
    · rw [hsettled, State.receiveError_port]
      rfl
    · split
      · exact absurd ‹_› hupdate
      · have hfree : choicesFor diverged settled = 0 := if_pos (.inr hsettled)
        rw [hrelease, if_neg hupdate, hfree]
        simp [outsideRound, BusController.leaveRound, recessiveField]

end Sys2Proof.Machine
end

section
/-! The data phase and what the owners do with a valid message (spec/04_the_wall_bus.md 4.4 to 4.8, spec/06, spec/07; R58 to
R70, R76, R78, R83, R84, R88, R89, R96, R97, R105, R106, R109, R111, R113 to R116, R132). -/

namespace Sys2Proof.Machine

-- One thread, as for the tests: proofs elaborated side by side would exceed the build's memory limit.
set_option Elab.async false

open Sys2Proof.Safety

/-! ### Transmission -/

theorem ownSlot_iff {s : State} (hround : s.bus.round = .data) :
    s.ownSlot = true ↔ s.bus.schedule[s.bus.slot]?.isSome = true ∧ s.bus.schedule[s.bus.slot]? = s.rank? := by
  simp [State.ownSlot, State.slotRank, hround]

/-- The body of the statement is the body the model builds (R76, R96, R111). -/
theorem buildBody_of_bodyFor {s : State} {kind : MessageKind} {epoch : Epoch} {body : Body}
    (h : BodyFor s kind epoch body) : s.buildBody kind epoch = some body := by
  cases kind with
  | audit =>
    obtain ⟨w, hw, ⟨hstage, rfl⟩ | ⟨hstage, a, ha, rfl⟩⟩ := h
    · simp [State.buildBody, hstage, Option.mem_def.mp hw]
    · simp [State.buildBody, hstage, Option.mem_def.mp hw, Option.mem_def.mp ha]
  | update | resyncRequest | resyncDone | block => exact congrArg some (Eq.symm h)

/-- Settles O27: the own slot's conditions, and the body the kind takes from its block. -/
theorem transmissionBuildsTheMessage : Obligations.TransmissionBuildsTheMessage := by
  intro s r hround hslot hrank
  have hown : s.ownSlot = true := (ownSlot_iff hround).mpr ⟨by rw [hslot]; rfl, hslot.trans hrank.symm⟩
  refine ⟨fun kind state epoch body hdrives hdrive hchosen hstate hepoch hbody => ?_, fun hchosen => ?_⟩
  · have hout : s.outgoing = some ⟨r, state, epoch, body⟩ := by
      simp [State.outgoing, State.rank?, hrank, hstate, hepoch, hchosen, buildBody_of_bodyFor hbody]
    simp [exec, execTransmit, hown, (drives_iff s).mpr hdrives, hdrive, hout]
  · have hout : s.outgoing = none := by
      cases hm : s.outgoing with
      | none => rfl
      | some m => simp [State.outgoing_kind hm] at hchosen
    simp [exec, execTransmit, hout]

/-! ### The end of a slot -/

theorem after_slotEnd {s : State} {c : Instr} (hrow : c = .messageAborted ∨ c = .slotVacant)
    (hround : s.bus.round = .data) : s.after c = s.endSlot := by
  rcases hrow with rfl | rfl <;> exact if_pos hround

theorem after_messageReceived {s : State} {r : Rank} (read : Option (List Byte)) (hround : s.bus.round = .data)
    (hslot : s.bus.schedule[s.bus.slot]? = some r) :
    s.after (.messageReceived read) = (s.takeMessage r read).endSlot := by
  simp [State.after, exec, execMessageReceived, State.slotRank, hround, hslot]

/-- A station that holds no message for the slot in progress loses nothing with its end. -/
theorem endSlot_of_free {s : State} (h : s.ownSlot = false ∨ s.bus.chosen = none) :
    s.endSlot = { s with bus := busAfterSlot s.bus } := by
  have houtcome : s.slotOutcome = s := by
    rcases s.slotOutcome_cases with ⟨-, heq⟩ | ⟨hown, hchosen, -⟩
    · exact heq
    · rcases h with h | h
      · rw [hown] at h
        cases h
      · exact absurd h hchosen
  rw [State.endSlot, houtcome, busAfterSlot_eq]

/-- The outcome ABORTED at the owner, block by block (R79, R83, R84). -/
theorem outcomeAborted_eq (s : State) :
    s.outcomeAborted =
      { s with
        bus := { s.bus with chosen := none }
        command := if s.bus.chosen = some .update then s.command.batchAborted.1 else s.command
        port := if s.bus.chosen = some .update then s.port.enqueueAll s.command.batchAborted.2 else s.port } := by
  rcases s.outcomeAborted_cases with ⟨hupdate, heq⟩ | ⟨hupdate, heq⟩
  · rw [heq, if_pos hupdate, if_pos hupdate]
  · rw [heq, if_neg hupdate, if_neg hupdate]

/-- Settles O29: with the abort pattern driven, the slot's end takes the outcome of the mismatch. -/
theorem readbackMismatchAborts : Obligations.ReadbackMismatchAborts := by
  intro s
  refine ⟨fun hsent => ?_, fun hsilent => ?_, ?_⟩
  · obtain ⟨m, hm⟩ := Option.ne_none_iff_exists'.mp hsent
    simp [exec, execReadbackMismatch, hm]
  · simp [exec, execReadbackMismatch, hsilent]
  · intro c hrow hround hdrive hchosen hslot hown aborted ended
    have hafter : s.after c = s.endSlot := by
      rcases hrow with rfl | rfl | ⟨read, rfl⟩
      · exact after_slotEnd (.inl rfl) hround
      · exact after_slotEnd (.inr rfl) hround
      · obtain ⟨r, hr⟩ := Option.isSome_iff_exists.mp hslot
        rw [after_messageReceived read hround hr, State.takeMessage, if_pos hdrive]
    have houtcome : s.slotOutcome = s.readbackAbort := by
      rw [State.slotOutcome, if_pos, if_pos hdrive]
      rw [(ownSlot_iff hround).mpr ⟨hslot, hown⟩, Option.isSome_iff_ne_none.mpr hchosen]
      rfl
    have haborted : aborted =
        { s.outcomeAborted with bus := { s.outcomeAborted.bus with aborts := s.outcomeAborted.bus.aborts + 1 } } := by
      rw [outcomeAborted_eq]
    have hended : s.readbackAbort = ended := by
      have hlimit : s.readbackAbort = if 8 ≤ s.bus.aborts + 1 then aborted.mute .repeatedAbort else aborted := by
        rw [haborted, State.readbackAbort, outcomeAborted_eq]
        rfl
      rw [hlimit]
      by_cases hbelow : s.bus.aborts + 1 < 8
      · rw [if_neg (Nat.not_le.mpr hbelow)]
        exact (if_pos (.inl hbelow)).symm
      · rw [if_pos (Nat.not_lt.mp hbelow)]
        by_cases hmuted : s.station.state = .muted
        · rw [show ended = aborted from if_pos (.inr hmuted)]
          exact State.mute_of_muted (s := aborted) _ hmuted
        · rw [show ended = mutedState aborted .repeatedAbort from if_neg (not_or.mpr ⟨hbelow, hmuted⟩)]
          exact (mutedState_eq (s := aborted) _ hmuted).symm
    rw [exec_next_iff, hafter, State.endSlot, houtcome, hended, busAfterSlot_eq]

theorem ownSlot_eq_false {s : State} (h : s.bus.schedule[s.bus.slot]? ≠ s.rank?) : s.ownSlot = false := by
  unfold State.ownSlot State.slotRank
  split <;> simp [h]

/-- Settles O30: by what the station holds for the slot that ends. -/
theorem slotsEndInOrder : Obligations.SlotsEndInOrder := by
  have hfree : ∀ {s : State}, s.bus.chosen = none ∨ s.bus.schedule[s.bus.slot]? ≠ s.loader.config.map Settings.rank →
      s.endSlot = { s with bus := busAfterSlot s.bus } :=
    fun h => endSlot_of_free (h.symm.imp ownSlot_eq_false id)
  refine ⟨fun s c hrow => ?_, fun s read hround hdrive hslot hheld => ?_⟩
  · have hrow' := hrow.symm
    simp only [exec_next_iff]
    refine ⟨fun hround hheld => ?_, fun hround hchosen hslot hown hdrive => ?_, fun hround => ?_⟩
    · rw [after_slotEnd hrow' hround, hfree hheld]
    · have houtcome : s.slotOutcome = s.outcomeAborted := by
        rw [State.slotOutcome, if_pos, if_neg hdrive]
        rw [(ownSlot_iff hround).mpr ⟨hslot, hown⟩, Option.isSome_iff_ne_none.mpr hchosen]
        rfl
      rw [after_slotEnd hrow' hround, State.endSlot, houtcome, outcomeAborted_eq, busAfterSlot_eq]
    · rcases hrow with rfl | rfl <;> exact if_neg hround
  · obtain ⟨r, hr⟩ := Option.isSome_iff_exists.mp hslot
    rw [exec_next_iff, after_messageReceived read hround hr, State.takeMessage, if_pos hdrive, hfree hheld]

/-- Settles O31: a receive error keeps the place in the round and what the station has chosen. -/
theorem receiveErrorsActByState : Obligations.ReceiveErrorsActByState := by
  intro s r read hround hslot hsilent hdrive hclass hheld
  have herror : s.takeMessage r read = s.receiveError := by
    rw [State.takeMessage, if_neg hdrive, hsilent]
    simp only [hclass]
  rw [exec_next_iff, after_messageReceived read hround hslot, herror, afterReceiveError_eq]
  refine endSlot_of_free (hheld.symm.imp (fun hother => ownSlot_eq_false ?_) fun hchosen => ?_) <;>
    rw [State.receiveError_bus]
  · simpa [State.rank?, hslot] using Ne.symm hother
  · exact hchosen

/-- Settles O32: muting, effect by effect. -/
theorem mutingTakesEveryEffect : Obligations.MutingTakesEveryEffect := fun _ cause =>
  ⟨fun h => (mutedState_eq cause h).symm, State.mute_of_muted cause⟩

theorem takeMessage_of_valid {s : State} {r : Rank} {read : Option (List Byte)} {m : Message}
    (hsilent : s.bus.drive.transmitting = none) (hdrive : s.bus.drive ≠ .abortPattern)
    (hdamaged : s.bus.slotDamaged = false) (hclass : classify r read = some m) : s.takeMessage r read = s.takeValid m := by
  rw [State.takeMessage, if_neg hdrive, hsilent]
  simp [hdamaged, hclass]

/-! What the owners do with a message does not look at the controller. -/

theorem takeHeader_with_bus (s : State) (b : BusController) (m : Message) :
    State.takeHeader { s with bus := b } m = { s.takeHeader m with bus := b } := by
  unfold State.takeHeader
  cases s.timer.epoch <;> rfl

theorem takeBody_with_bus (s : State) (b : BusController) (m : Message) :
    State.takeBody { s with bus := b } m = { s.takeBody m with bus := b } := by
  unfold State.takeBody
  cases m.body with
  | update items => rfl
  | audit epoch digest => rfl
  | resyncRequest =>
    by_cases h : (s.timer.epoch.isSome && (s.peer m.rank).reported.elim false Reported.repairing) = true
    · have hwith : State.takeRequestBody { s with bus := b } m.rank = _ := if_pos h
      have hself : s.takeRequestBody m.rank = _ := if_pos h
      rw [hwith, hself]
    · have hwith : State.takeRequestBody { s with bus := b } m.rank = _ := if_neg h
      have hself : s.takeRequestBody m.rank = _ := if_neg h
      rw [hwith, hself]
  | resyncDone => rfl
  | block number epoch values =>
    have hinstall : ∀ t : State, State.install { t with bus := b } number values = { t.install number values with bus := b } :=
      fun t => by
        simp only [State.install]
        split <;> rfl
    have hinstalls : State.installs { s with bus := b } m.rank epoch = s.installs m.rank epoch := rfl
    simp only [State.takeBlock, hinstalls]
    split
    · exact hinstall { s with resync := s.resync.seeBlock number }
    · rfl

theorem outcomeClean_with_bus (s : State) (b : BusController) (kind : MessageKind) :
    State.outcomeClean { s with bus := b } kind = { s.outcomeClean kind with bus := b } := by
  cases kind with
  | audit =>
    unfold State.outcomeClean
    cases s.members.stage <;> rfl
  | update | resyncRequest | resyncDone | block => rfl

/-- Settles O33: whatever the message does, the slot then ends with nothing held for it. -/
theorem validMessagesAreHandedOn : Obligations.ValidMessagesAreHandedOn := by
  intro s m read
  refine ⟨fun ⟨hround, hslot, hsilent, hdrive, hdamaged, hclass, hother⟩ => ?_,
    fun hround hslot hsilent hdrive hdamaged hclass hown hchosen => ?_, fun hround hslot hsent => ?_⟩
  · rw [exec_next_iff, after_messageReceived read hround hslot, takeMessage_of_valid hsilent hdrive hdamaged hclass,
      State.takeValid, if_neg (show s.rank? ≠ _ from hother), endSlot_of_free (.inl (ownSlot_eq_false ?_))]
    · simp
    · simpa [State.rank?, hslot] using Ne.symm hother
  · rw [exec_next_iff, after_messageReceived read hround hslot, takeMessage_of_valid hsilent hdrive hdamaged hclass,
      State.takeValid, if_pos (show s.rank? = _ from hown), endSlot_of_free (.inr ?_)]
    · simp
    · rw [(State.takeBody_frame _ m).2.2.1]
      unfold State.mute
      split
      · exact hchosen ‹_›
      · rfl
  · have hdrive : s.bus.drive ≠ .abortPattern := fun heq => by
      rw [heq] at hsent
      cases hsent
    have htake : s.takeMessage m.rank read = s.takeOwn m := by
      rw [State.takeMessage, if_neg hdrive, hsent]
    rw [exec_next_iff, after_messageReceived read hround hslot, htake, endSlot_of_free (.inr (by simp)),
      State.takeOwn, takeHeader_with_bus, takeBody_with_bus, outcomeClean_with_bus]

/-! ### The owners -/

theorem setRank_eq {α : Type} (table : Vector α 16) (r : Rank) (a : α) : setRank table r a = table.set r.toNat a := rfl

/-- Settles O34: the entry of the sender takes the header. -/
theorem headersEnterTheTable : Obligations.HeadersEnterTheTable := by
  intro s m
  refine ⟨fun hepoch => by rw [State.takeHeader, hepoch], fun e hepoch => ?_⟩
  intro p
  have hport : s.port.enqueueAll (foundRecords s.rank? m.rank (s.peer m.rank)) =
      if p.presence = .absent ∧ s.loader.config.map Settings.rank ≠ some m.rank then
        s.port.enqueue (.event (.peerFound m.rank))
      else s.port := by
    have htest : (decide ((s.peer m.rank).presence = .absent) && decide (s.rank? ≠ some m.rank)) = true ↔
        p.presence = .absent ∧ s.loader.config.map Settings.rank ≠ some m.rank := by
      rw [Bool.and_eq_true, decide_eq_true_iff, decide_eq_true_iff]
      rfl
    unfold foundRecords
    by_cases hfound : p.presence = .absent ∧ s.loader.config.map Settings.rank ≠ some m.rank
    · rw [if_pos (htest.mpr hfound), if_pos hfound]
      rfl
    · rw [if_neg fun h => hfound (htest.mp h), if_neg hfound]
      rfl
  rw [State.takeHeader, hepoch]
  simp only [hport]
  rfl

/-- Settles O36: body by body. -/
theorem auditsAndRequestsAreTaken : Obligations.AuditsAndRequestsAreTaken := by
  intro s m entry
  refine ⟨fun epoch digest hbody => ?_, fun hbody => ?_, fun hbody => ?_⟩
  · rw [State.takeBody, hbody]
    cases hwindow : s.members.window with
    | none => simp [Membership.tallyAudit, hwindow]
    | some w =>
      cases digest with
      | none => simp [Membership.tallyAudit, hwindow]
      | some d =>
        by_cases htaken : w.epoch = epoch ∧ m.state = .inStep
        · simp [Membership.tallyAudit, hwindow, htaken, setRank]
        · simp [Membership.tallyAudit, hwindow, htaken]
  · have hreported : (s.peer m.rank).reported.elim false Reported.repairing = true ↔
        entry.reported = some .joining ∨ entry.reported = some .diverged := by
      change entry.reported.elim false Reported.repairing = true ↔ _
      cases entry.reported with
      | none => simp
      | some state => cases state <;> simp [Reported.repairing]
    rw [State.takeBody, hbody]
    simp only [State.takeRequestBody]
    refine if_congr ?_ rfl rfl
    rw [Bool.and_eq_true, hreported, Option.isSome_iff_ne_none]
  · rw [State.takeBody, hbody]
    rfl

/-- Settles O38: by kind. -/
theorem cleanOutcomesReachTheirOwners : Obligations.CleanOutcomesReachTheirOwners := by
  intro s
  refine ⟨rfl, fun kind hstage => by simp [State.outcomeClean, hstage], fun hstage => ?_, rfl, rfl, rfl⟩
  rw [State.outcomeClean]
  split
  next kind hkind => exact absurd hkind (hstage kind)
  next => rfl

/-- The set is full with block `b` in it if every other block was in it. -/
theorem receive_full (r : ResyncUnit) (b : Fin 66) :
    (r.receive b).full = true ↔ ∀ k : Fin 66, k = b ∨ r.received[k] = true := by
  have hentry : ∀ k : Fin 66, (r.received.set b true)[k] = true ↔ k = b ∨ r.received[k] = true := fun k => by
    by_cases h : k = b
    · subst h
      simp
    · have hne : b.val ≠ k.val := fun heq => h (Fin.ext heq.symm)
      simp [hne, h]
  simp only [ResyncUnit.full, ResyncUnit.receive, List.all_eq_true, id, Vector.mem_toList_iff, Vector.mem_iff_getElem]
  exact ⟨fun h k => (hentry k).mp (h _ ⟨k, k.isLt, rfl⟩), fun h x ⟨i, hi, hx⟩ => hx ▸ (hentry ⟨i, hi⟩).mpr (h ⟨i, hi⟩)⟩

/-- Settles O37: an install writes a block's own targets, and the last one ends the repair. -/
theorem blocksAreFollowedAndInstalled : Obligations.BlocksAreFollowedAndInstalled := by
  intro s m b epoch values hbody hform hdigest installs followed
  have hinstalls : s.installs m.rank epoch = true ↔ installs := by
    have hrepairing : s.station.state.repairing = true ↔ s.station.state = .joining ∨ s.station.state = .diverged := by
      cases s.station.state <;> simp [StationState.repairing]
    rw [State.installs, Bool.and_eq_true, Bool.and_eq_true, decide_eq_true_iff, decide_eq_true_iff, hrepairing, and_assoc]
    rfl
  have htake : s.takeBody m = s.takeBlock m.rank b epoch values := by rw [State.takeBody, hbody]
  have htargets : values.Pairwise fun i j => i.target ≠ j.target := by
    rw [hbody] at hform
    have hmap : values.map Item.target = blockTargets b := by simpa [Body.wellFormed] using hform
    have hnodup := blockTargets_nodup b
    rw [← hmap] at hnodup
    exact List.pairwise_map.mp hnodup
  refine ⟨fun hnot => ?_, fun hyes => ⟨_, writesEntries_foldl htargets s.store.wall, ?_⟩⟩
  · rw [htake, State.takeBlock, if_neg fun h => hnot (hinstalls.mp h)]
    rfl
  · intro installed
    rw [htake, State.takeBlock, if_pos (hinstalls.mpr hyes), State.install]
    simp only [WallStore.writeAll_eq values hdigest, receive_full, repairedState_eq]
    rfl

end Sys2Proof.Machine
end

section
/-! The parts of a mark, block by block (spec/02_staging_and_the_epoch_apply.md, spec/03_epochs_and_frame_timing.md 3.3 and 3.4,
spec/06_peers_and_audits.md; R18, R22 to R27, R38 to R44, R90, R91, R94, R98 to R102). -/

namespace Sys2Proof.Machine

-- One thread, as for the tests: proofs elaborated side by side would exceed the build's memory limit.
set_option Elab.async false

open Sys2Proof.Safety

theorem after_mark {s : State} {c : Settings} (others : Epoch) (h : SamplesMark s c) :
    s.after (.mark others) = (s.takeMark c (adoptedEpoch s others)).fieldAfterMark := by
  obtain ⟨hconfig, hrunning, hround, hfield⟩ := h
  simp [State.after, exec, execMark, hconfig, hrunning, hround, hfield, adoptedEpoch_eq]

/-! ### The epoch timer (R40 to R44) -/

/-- The source port after the slip's part of a mark (R40). -/
def State.slippedPort (s : State) (adopted : Epoch) : SourcePort :=
  s.port.enqueueAll (slipRecords s.timer.epoch s.epochDrive adopted)

/-- The timer part of a mark, with line 0 begun at `port` (R43, R44). -/
def State.restarted (s : State) (c : Settings) (adopted : Epoch) (port : SourcePort) : State :=
  { s with
    timer := { s.timer.adopt adopted (offsetAt c s.timer.phase s.timer.line) with line := 0, phase := .waiting }
    port := { port with cue := some ⟨0, 0 < c.activeLines⟩ }
    pixel := pixelAtLineStart c 0 s.pixel }

/-- The four corrections: none in phase ENDED, a jump, a wrap, and an advance (R41 to R44). -/
theorem State.timerMark_eq {s : State} {c : Settings} (adopted : Epoch) (hline : s.timer.line < c.totalLines) :
    s.timerMark c adopted =
      if s.timer.phase = .ended then
        { s with
          port := s.slippedPort adopted
          timer := { s.timer.adopt adopted (offsetAt c s.timer.phase s.timer.line) with phase := .waiting } }
      else if c.lockWindow < c.totalLines - s.timer.line then
        s.restarted c adopted
          ((s.slippedPort adopted).enqueue (.event (.timingJump (-((c.totalLines - s.timer.line : Nat) : Int)))))
      else if c.totalLines - s.timer.line ≤ c.slewLimit then s.restarted c adopted (s.slippedPort adopted)
      else
        { s with
          port := s.slippedPort adopted
          timer :=
            { s.timer.adopt adopted (offsetAt c s.timer.phase s.timer.line) with
              line := s.timer.line + c.slewLimit, phase := .covered } } := by
  have hfollow : s.timer.phase ≠ .ended → s.timerMark c adopted =
      State.catchUp
        { s with
          port := s.slippedPort adopted
          timer := s.timer.adopt adopted (offsetAt c s.timer.phase s.timer.line) } c
        (c.totalLines - s.timer.line) := by
    intro hphase
    unfold State.timerMark State.correct EpochTimer.adopt
    cases hp : s.timer.phase with
    | ended => exact absurd hp hphase
    | waiting | covered => rfl
  by_cases hphase : s.timer.phase = .ended
  · rw [if_pos hphase, State.timerMark, State.correct]
    simp only [EpochTimer.adopt, hphase]
    rfl
  · rw [if_neg hphase, hfollow hphase]
    rcases State.catchUp_cases
        { s with
          port := s.slippedPort adopted
          timer := s.timer.adopt adopted (offsetAt c s.timer.phase s.timer.line) } c
        (c.totalLines - s.timer.line) with ⟨hlock, hreach, h⟩ | ⟨hlock, hreach, h⟩ | ⟨hlock, h⟩
    · have hslew : ¬c.totalLines - s.timer.line ≤ c.slewLimit := by
        change s.timer.line + _ < _ at hreach
        omega
      rw [h, if_neg (by omega), if_neg hslew, Nat.min_eq_right (by omega)]
      rfl
    · have hslew : c.totalLines - s.timer.line ≤ c.slewLimit := by
        change _ ≤ s.timer.line + _ at hreach
        omega
      rw [h, if_neg (by omega), if_pos hslew, State.beginLine_eq]
      rfl
    · rw [h, if_pos hlock, State.beginLine_eq]
      rfl

theorem slippedPort_eq (s : State) (adopted : Epoch) :
    s.slippedPort adopted =
      match s.timer.epoch with
      | some e => if Drives s ∧ e + 1 ≠ adopted then s.port.enqueue (.event (.epochSlip e adopted)) else s.port
      | none => s.port := by
  unfold State.slippedPort State.epochDrive slipRecords
  cases s.timer.epoch with
  | none => simp
  | some e =>
    show s.port.enqueueAll (match some e, if s.drives then some (e + 1) else none with
      | some old, some d => if d = adopted then [] else [.event (.epochSlip old adopted)]
      | _, _ => []) = if Drives s ∧ e + 1 ≠ adopted then _ else _
    by_cases hdrives : s.drives = true
    · by_cases hslip : e + 1 = adopted
      · rw [if_pos hdrives, if_neg fun h => h.2 hslip]
        exact congrArg _ (if_pos hslip)
      · rw [if_pos hdrives, if_pos ⟨(drives_iff s).1 hdrives, hslip⟩]
        exact congrArg _ (if_neg hslip)
    · rw [if_neg hdrives, if_neg fun h => hdrives ((drives_iff s).2 h.1)]
      rfl

/-- Settles O40: the slip's record, then the correction's. -/
theorem marksReportSlipsAndJumps : Obligations.MarksReportSlipsAndJumps := by
  intro s c others _ hline behind slipped
  have hslip : slipped = s.slippedPort (adoptedEpoch s others) := (slippedPort_eq s _).symm
  rw [State.timerMark_eq _ hline, hslip]
  simp only [apply_ite State.port]
  rfl

/-! ### The membership unit (R90, R91, R94 to R102) -/

/-- Settles O45: the statement's window is the model's, closed and opened. -/
theorem auditWindowsOpenAndClose : Obligations.AuditWindowsOpenAndClose := by
  intro s c adopted
  have haudit := auditEpoch_iff c adopted
  unfold State.windowMark
  cases hwindow : s.members.window with
  | none =>
    simp only [windowOpened_eq]
    exact if_congr haudit rfl rfl
  | some w =>
    simp only [windowOpened_eq, windowClosed_eq]
    exact if_congr haudit rfl rfl

theorem allRanks_eq : allRanks = (List.finRange 16).map BitVec.ofFin := by
  simp [allRanks, List.range_succ, List.finRange_succ]

theorem atRank_ofFin {α : Type} (table : Vector α 16) (r : Fin 16) : atRank table (BitVec.ofFin r) = table[r] := rfl

theorem silent_eq (c : Settings) (adopted : Epoch) (rank r : Rank) (p : Peer) :
    silent c (some rank) adopted r p = ((r ≠ rank && p.presence = .present) && silentFor c adopted p) := by
  unfold silent silentFor otherPresent
  cases p.lastHeard <;> simp [eq_comm]

/-- Settles O43: entry by entry, and the records by the ranks that are lost. -/
theorem silentPeersAreLost : Obligations.SilentPeersAreLost := by
  intro s c old adopted hconfig renumbered heard lost
  have hrank : s.rank? = some c.rank := by rw [State.rank?, hconfig]; rfl
  have hother (r : Fin 16) (p : Peer) :
      otherPresent s.rank? (BitVec.ofFin r) p = true ↔ BitVec.ofFin r ≠ c.rank ∧ p.presence = .present := by
    simp only [otherPresent, hrank, Bool.and_eq_true, decide_eq_true_eq, ne_eq, Option.some.injEq, @eq_comm _ c.rank]
  have hentry (r : Fin 16) : atRank renumbered.members.table (BitVec.ofFin r) =
      if BitVec.ofFin r ≠ c.rank ∧ (s.members.table[r]).presence = .present then heard s.members.table[r]
      else s.members.table[r] := by
    rw [Membership.renumber_entry, atRank_ofFin]
    simp only [hother, heard]
    by_cases hnext : adopted = old + 1
    · rw [if_neg fun h => h.1 hnext, if_pos hnext, ite_self]
    · rw [if_neg hnext]
      exact if_congr (and_iff_right hnext) rfl rfl
  have hheard (p : Peer) : (heard p).presence = p.presence := by
    simp only [heard, apply_ite Peer.presence, ite_self]
  have hsilent (r : Fin 16) :
      silent c s.rank? adopted (BitVec.ofFin r) (atRank renumbered.members.table (BitVec.ofFin r)) =
        ((BitVec.ofFin r ≠ c.rank && (s.members.table[r]).presence = .present) &&
          silentFor c adopted (heard s.members.table[r])) := by
    rw [hentry, hrank, silent_eq]
    by_cases hpeer : BitVec.ofFin r ≠ c.rank ∧ (s.members.table[r]).presence = .present
    · rw [if_pos hpeer, hheard]
    · rw [if_neg hpeer]
      have hfalse : (BitVec.ofFin r ≠ c.rank && (s.members.table[r]).presence = .present : Bool) = false := by
        simpa using hpeer
      rw [hfalse, Bool.false_and, Bool.false_and]
  refine ⟨(renumbered.members.silenceCheck c s.rank? adopted).table, fun r => ?_, ?_⟩
  · rw [← atRank_ofFin, Membership.silenceCheck_entry, hsilent, hentry]
    by_cases hpeer : BitVec.ofFin r ≠ c.rank ∧ (s.members.table[r]).presence = .present
    · have hlost : lost r ↔ silentFor c adopted (heard s.members.table[r]) = true :=
        ⟨fun h => h.2.2, fun h => ⟨hpeer.1, hpeer.2, h⟩⟩
      rw [if_pos hpeer]
      refine if_congr ?_ rfl rfl
      rw [hlost]
      simp only [Bool.and_eq_true, decide_eq_true_eq]
      exact and_iff_right hpeer
    · have hlost : ¬lost r := fun h => hpeer ⟨h.1, h.2.1⟩
      rw [if_neg hpeer, if_neg hlost, if_neg]
      simp only [Bool.and_eq_true, decide_eq_true_eq]
      exact fun h => hpeer h.1
  · have hrecords := List.filter_congr (l := List.finRange 16) fun r _ => hsilent r
    have hlostRecords := congrArg (List.map fun r => Record.event (.peerLost (BitVec.ofFin r))) hrecords
    have hmembers : renumbered.members.silenceCheck c s.rank? adopted =
        { s.members with table := (renumbered.members.silenceCheck c s.rank? adopted).table } := by
      obtain ⟨hwindow, hstage, hrecord, htally⟩ := s.members.renumber_frame s.rank? old adopted
      rw [Membership.silenceCheck, hwindow, hstage, hrecord, htally]
    unfold State.checkSilence Membership.lostRecords
    rw [← hlostRecords, ← hmembers, allRanks_eq, List.filter_map, List.map_map]
    rfl

/-- The ranks whose tally entry holds a digest (R99). -/
def holderRanks (tally : Vector (Option Digest) 16) (d : Digest) : List (Fin 16) :=
  (List.finRange 16).filter fun r => tally[r] = some d

theorem mem_holderRanks {tally : Vector (Option Digest) 16} {r : Fin 16} {d : Digest} :
    r ∈ holderRanks tally d ↔ (BitVec.ofFin r, d) ∈ tallyEntries tally := by
  rw [mem_tallyEntries, atRank_ofFin]
  simp [holderRanks]

theorem holders_eq (tally : Vector (Option Digest) 16) (d : Digest) :
    holders (tallyEntries tally) d = (holderRanks tally d).length := by
  unfold holders holderRanks tallyEntries
  rw [allRanks_eq, List.filterMap_map, ← List.countP_eq_length_filter, ← List.countP_eq_length_filter,
    List.countP_filterMap]
  refine List.countP_congr fun r _ => ?_
  simp only [Function.comp_apply, atRank_ofFin]
  cases tally[r] <;> simp

/-- The first best entry holds the reference: a holder of the reference of no higher rank would be a best entry too, and the
entries ascend. -/
theorem referenceDigest_of_isReference {tally : Vector (Option Digest) 16} {d : Digest} (h : IsReference tally d) :
    referenceDigest (tallyEntries tally) = some d := by
  obtain ⟨hheld, hbest⟩ : 0 < (holderRanks tally d).length ∧ ∀ d', (holderRanks tally d').length ≤
      (holderRanks tally d).length ∧ ((holderRanks tally d').length = (holderRanks tally d).length →
        ∀ r ∈ holderRanks tally d', ∃ q ∈ holderRanks tally d, q ≤ r) := h
  obtain ⟨q₁, hq₁⟩ := List.exists_mem_of_length_pos hheld
  have hentry := mem_holderRanks.mp hq₁
  have hsome : (referenceDigest (tallyEntries tally)).isSome = true := by
    rw [referenceDigest_isSome, List.any_eq_true]
    refine ⟨q₁, List.mem_finRange q₁, ?_⟩
    rw [mem_tallyEntries, atRank_ofFin] at hentry
    simp [hentry]
  obtain ⟨d₀, hreference⟩ := Option.isSome_iff_exists.mp hsome
  rw [hreference]
  obtain ⟨⟨r, d₁⟩, hfind, rfl⟩ := Option.map_eq_some_iff.mp hreference
  obtain ⟨hmost, before, behind, hsplit, hbefore⟩ := List.find?_eq_some_iff_append.mp hfind
  simp only [List.all_eq_true, decide_eq_true_eq, holders_eq] at hmost
  have hcount : (holderRanks tally d₁).length = (holderRanks tally d).length :=
    Nat.le_antisymm (hbest d₁).1 (hmost _ hentry)
  have hr : (r, d₁) ∈ tallyEntries tally := by simp [hsplit]
  obtain ⟨q, hq, hle⟩ := (hbest d₁).2 hcount r.toFin (mem_holderRanks.mpr hr)
  have hq' := mem_holderRanks.mp hq
  rcases List.mem_append.mp (hsplit ▸ hq') with hin | hin
  · have hworse := hbefore _ hin
    simp only [Bool.not_eq_true', List.all_eq_false, decide_eq_true_eq, holders_eq, ← hcount] at hworse
    obtain ⟨e, he, hmore⟩ := hworse
    exact absurd (hmost e he) hmore
  · rcases List.mem_cons.mp hin with heq | hin
    · exact congrArg some (Prod.mk.inj heq).2.symm
    · have hascending := List.pairwise_append.mp (hsplit ▸ tallyEntries_ascending tally)
      have hlt : r.toNat < q.val := List.rel_of_pairwise_cons hascending.2.1 hin
      exact absurd hle (Nat.not_le.mpr hlt)

/-- Settles O44: the reference of the statement is the one the model finds, and the verdicts follow entry by entry. -/
theorem theMajorityDigestDecides : Obligations.TheMajorityDigestDecides := by
  refine fun m => ⟨fun hempty => ?_, fun d hd => ⟨m.decide.table, ?_, fun r => ?_⟩⟩
  · have hnone : referenceDigest (tallyEntries m.tally) = none := by
      rw [← Option.not_isSome_iff_eq_none, referenceDigest_isSome]
      simp only [List.any_eq_true, hempty]
      simp
    simp only [Membership.decide, hnone]
  · simp only [Membership.decide, referenceDigest_of_isReference hd]
  · simp only [Membership.decide, referenceDigest_of_isReference hd]
    rw [← atRank_ofFin, atRank_ofRanks, atRank_ofFin, atRank_ofFin]
    unfold Peer.judge
    cases m.tally[r] <;> simp

/-! ### The wall state store (R18, R22 to R27) -/

/-- An own audit that an apply has built waits for no other. -/
theorem Membership.buildRecord_twice (m : Membership) (digest digest' : Digest) :
    (m.buildRecord digest).buildRecord digest' = m.buildRecord digest := by
  cases hw : m.window with
  | none =>
    have hnone (d : Digest) : m.buildRecord d = m := by simp [Membership.buildRecord, hw]
    rw [hnone, hnone]
  | some w =>
    cases hs : m.stage with
    | awaitingApply due => cases due <;> simp [Membership.buildRecord, hw, hs]
    | none | pending _ | sent _ => simp [Membership.buildRecord, hw, hs]

/-- The items of the PENDING generation, if there is one (R17). -/
def WallStore.closedItems (st : WallStore) : List Item :=
  match st.closed with
  | some g => g.items
  | none => []

/-- The records of the apply of the PENDING generation, if there is one (R26, R27). -/
def WallStore.closedRecords (st : WallStore) (torn : Bool) : List Record :=
  match st.closed with
  | some g => applyRecords g torn
  | none => []

/-- An apply on a store with a true digest: the wall state its entries give, and its digest (R7, R25). -/
theorem State.applyClosed_eq {s : State} (torn : Bool) (hclosed : ∀ g ∈ s.store.closed, CanonicalGeneration g.items)
    (hdigest : s.store.digest = s.store.wall.digest) :
    ∃ wall, WritesEntries s.store.wall wall s.store.closedItems ∧
      s.applyClosed torn =
        { s with
          store := { s.store with wall := wall, digest := wall.digest, closed := none }
          port := s.port.enqueueAll (s.store.closedRecords torn)
          members := if s.store.closed = none then s.members else s.members.buildRecord wall.digest } := by
  unfold WallStore.closedItems WallStore.closedRecords
  rcases s.applyClosed_cases torn with ⟨hnone, h⟩ | ⟨g, hg, h⟩
  · refine ⟨s.store.wall, fun t => ?_, ?_⟩
    · rw [hnone]; rfl
    · rw [h, hnone, ← hdigest, if_pos rfl, SourcePort.enqueueAll_nil, ← hnone]
  · obtain ⟨wall, hwrites, hstore⟩ := WallStore.applyGeneration_eq (hclosed g hg) hdigest
    rw [hg]
    exact ⟨wall, hwrites, by rw [h, hstore, if_neg (Option.some_ne_none g)]⟩

/-- Settles O41: the two applies of a close, one after the other, and the whole mark's store. -/
theorem marksCloseTheGeneration : Obligations.MarksCloseTheGeneration := by
  intro s hopened hclosed hdigest
  refine ⟨fun c line adopted offset => ⟨fun hstaging => ?_, fun hstaging => ?_⟩, fun c others hmark => ?_⟩
  · simp [State.storeMark, hstaging, WallStore.openStaging]
  · obtain ⟨older, holder, hfirst⟩ := State.applyClosed_eq (s := s) true hclosed hdigest
    have hclose : s.storeMark c line adopted offset =
        if c.activeLines ≤ line then
          State.applyClosed { s.applyClosed true with store := (s.applyClosed true).store.close adopted offset } false
        else { s.applyClosed true with store := (s.applyClosed true).store.close adopted offset } := by
      rw [State.storeMark, if_pos hstaging, State.closeGeneration]
    rw [hfirst] at hclose
    obtain ⟨newer, hnewer, hsecond⟩ := State.applyClosed_eq
      (s := { s with
        store := WallStore.close { s.store with wall := older, digest := older.digest, closed := none } adopted offset
        port := s.port.enqueueAll (s.store.closedRecords true)
        members := if s.store.closed = none then s.members else s.members.buildRecord older.digest })
      false (by rintro g ⟨⟩; exact hopened) (by simp only [WallStore.close])
    refine ⟨older, newer, holder, hnewer, ?_⟩
    rw [hclose, hsecond]
    by_cases hblank : c.activeLines ≤ line <;> cases hpending : s.store.closed <;>
      simp [hblank, hpending, membersAfterApply_eq, Membership.buildRecord_twice, WallStore.closedRecords, WallStore.close,
        applyRecords, hstaging]
  · refine ⟨_, exec_eq_next _ s, ?_⟩
    rw [after_mark others hmark, State.fieldAfterMark_store, State.takeMark_store, storeAct, State.storeMark_store,
      adoptedEpoch_eq, markOffset_eq]

end Sys2Proof.Machine
end

section
/-! The whole mark (spec/03_epochs_and_frame_timing.md 3.3, spec/06_peers_and_audits.md 6.7, spec/07_resynchronisation.md 7.2
and 7.6, spec/08_station_lifecycle.md 8.3; R38, R102, R117 to R119, R128). -/

namespace Sys2Proof.Machine

-- One thread, as for the tests: proofs elaborated side by side would exceed the build's memory limit.
set_option Elab.async false

open Sys2Proof.Safety

/-! ### The line 0 that a mark begins (R43, R44) -/

theorem EpochTimer.restarts_iff (t : EpochTimer) (c : Settings) :
    t.restarts c = true ↔
      t.phase ≠ .ended ∧ (c.lockWindow < c.totalLines - t.line ∨ c.totalLines - t.line ≤ c.slewLimit) := by
  have hreach : c.totalLines ≤ t.line + min (c.totalLines - t.line) c.slewLimit ↔
      c.totalLines - t.line ≤ c.slewLimit := by omega
  unfold EpochTimer.restarts
  cases t.phase with
  | ended => simp
  | waiting | covered => simp [hreach]

theorem markLineRecords_eq (s : State) (c : Settings) : s.markLineRecords c = begunRecords s c := by
  unfold State.markLineRecords begunRecords
  rw [State.lineRecords_eq]
  exact if_congr (s.timer.restarts_iff c) rfl rfl

/-! ### The cue and the pixel path at a mark (R35, R158) -/

@[simp] theorem State.slippedPort_cue (s : State) (adopted : Epoch) : (s.slippedPort adopted).cue = s.port.cue :=
  SourcePort.enqueueAll_cue ..

/-- The timer's part of a mark issues the cue of line 0 and swaps the line buffers exactly if it begins line 0. -/
theorem State.timerMark_line {s : State} {c : Settings} (adopted : Epoch) (hline : s.timer.line < c.totalLines) :
    (s.timerMark c adopted).port.cue = (if s.timer.restarts c then some ⟨0, 0 < c.activeLines⟩ else s.port.cue) ∧
      (s.timerMark c adopted).pixel = if s.timer.restarts c then pixelAtLineStart c 0 s.pixel else s.pixel := by
  rw [State.timerMark_eq adopted hline]
  have hrestarts := s.timer.restarts_iff c
  by_cases hended : s.timer.phase = .ended
  · have : s.timer.restarts c = false := by simp [EpochTimer.restarts, hended]
    simp [hended, this]
  · rw [if_neg hended]
    by_cases hjump : c.lockWindow < c.totalLines - s.timer.line
    · have : s.timer.restarts c = true := hrestarts.mpr ⟨hended, .inl hjump⟩
      simp [hjump, this, State.restarted]
    · rw [if_neg hjump]
      by_cases hwrap : c.totalLines - s.timer.line ≤ c.slewLimit
      · have : s.timer.restarts c = true := hrestarts.mpr ⟨hended, .inr hwrap⟩
        simp [hwrap, this, State.restarted]
      · have : ¬s.timer.restarts c = true := fun h => (hrestarts.mp h).2.elim hjump hwrap
        simp [hwrap, this]

@[simp] theorem State.takeMark_pixel (s : State) (c : Settings) (adopted : Epoch) :
    (s.takeMark c adopted).pixel = (s.timerMark c adopted).pixel := by
  rcases s.markActions_cases c adopted with h | ⟨-, h | h⟩ <;> simp [State.takeMark, h]

/-- An act that issues no cue. -/
def KeepsCue (act : State → State) : Prop := ∀ t : State, (act t).port.cue = t.port.cue

theorem reportAll_keepsCue (records : List Record) : KeepsCue fun t => t.reportAll records := fun t => by simp

theorem applyClosed_keepsCue (torn : Bool) : KeepsCue fun t => t.applyClosed torn := fun t => by
  rcases t.applyClosed_cases torn with ⟨-, h⟩ | ⟨g, -, h⟩ <;> simp [h]

theorem storeMark_keepsCue (c : Settings) (line : Nat) (adopted : Epoch) (offset : Int) :
    KeepsCue fun t => t.storeMark c line adopted offset := fun t => by
  have happly := fun torn t => applyClosed_keepsCue torn t
  simp only at happly
  simp only [State.storeMark, State.closeGeneration]
  repeat' split
  all_goals simp [happly]

theorem memberMark_keepsCue (c : Settings) (old : Option Epoch) (adopted : Epoch) :
    KeepsCue fun t => t.stationMark.memberMark c old adopted := fun t => by
  have hclose (t : State) (w : AuditWindow) : (t.closeWindow w).port.cue = t.port.cue := by
    rcases t.closeWindow_cases w with ⟨-, -, h⟩ | h <;> simp [h]
  simp only [State.memberMark, State.windowMark]
  repeat' split
  all_goals simp [hclose, State.checkSilence]

theorem waitMark_keepsCue (c : Settings) (repairingBefore eligibleBefore : Bool) :
    KeepsCue fun t => t.waitMark c repairingBefore eligibleBefore := fun t => by
  rcases t.waitMark_cases c repairingBefore eligibleBefore with ⟨-, -, -, h⟩ | ⟨-, -, -, h⟩ | h <;> simp [h]

theorem run_keepsCue {acts : List (State → State)} (h : ∀ act ∈ acts, KeepsCue act) : KeepsCue fun t => t.run acts := by
  induction acts with
  | nil => exact fun t => rfl
  | cons act acts ih =>
    obtain ⟨hact, hacts⟩ := List.forall_mem_cons.mp h
    exact fun t => (ih hacts (act t)).trans (hact t)

/-- The timer acts first, and no other block issues a cue. -/
theorem State.markActions_timer (s : State) (c : Settings) (adopted : Epoch) :
    ∃ acts, s.markActions c adopted = (fun t => t.timerMark c adopted) :: acts ∧ ∀ act ∈ acts, KeepsCue act := by
  have hstore := storeMark_keepsCue c s.timer.line adopted (offsetAt c s.timer.phase s.timer.line)
  have hmembers := memberMark_keepsCue c s.timer.epoch adopted
  have hresync := waitMark_keepsCue c s.station.state.repairing s.anyEligible
  rcases s.markActions_cases c adopted with h | ⟨-, h | h⟩ <;> refine ⟨_, h, ?_⟩ <;>
    simp only [List.forall_mem_cons, List.not_mem_nil, false_implies, implies_true, and_true] <;>
    simp only [hstore, hmembers, hresync, and_self]

theorem State.markPort_cue {s : State} {c : Settings} (adopted : Epoch) (hline : s.timer.line < c.totalLines) :
    (s.markPort c adopted).cue = if s.timer.restarts c then some ⟨0, 0 < c.activeLines⟩ else s.port.cue := by
  obtain ⟨acts, hacts, hkeep⟩ := s.markActions_timer c adopted
  have hrun (acts' : List (State → State)) (h : ∀ act ∈ acts', KeepsCue act) (t : State) : (t.run acts').port.cue = t.port.cue :=
    run_keepsCue h t
  unfold State.markPort
  simp only [hacts]
  split
  · rw [State.run_cons, hrun acts hkeep, (State.timerMark_line adopted hline).1]
  · cases Config.choice (s.choices + 1) % 5 with
    | zero =>
      rw [List.insertIdx_zero, State.run_cons, State.run_cons, hrun acts hkeep,
        (State.timerMark_line (s := s.reportAll _) adopted hline).1]
      simp
    | succ k =>
      rw [List.insertIdx_succ_cons, State.run_cons, hrun _ fun act hact => ?_, (State.timerMark_line adopted hline).1]
      rcases List.eq_or_mem_of_mem_insertIdx hact with rfl | hact
      · exact reportAll_keepsCue _
      · exact hkeep act hact

/-- Settles O39: the timer by its four corrections, and the cue and the pixel path by the line 0 that begins or does not. -/
theorem marksCorrectTheTimer : Obligations.MarksCorrectTheTimer := by
  intro s c others hmark hline hactive behind ended wraps
  have hwraps : s.timer.restarts c = true ↔ wraps := s.timer.restarts_iff c
  obtain ⟨hcue, hpixel⟩ := State.timerMark_line (adoptedEpoch s others) hline
  obtain ⟨hloader, hcommand, hbus, -⟩ := s.takeMark_frame c (adoptedEpoch s others)
  refine ⟨_, exec_eq_next _ s, ?_⟩
  rw [after_mark others hmark]
  refine ⟨?_, ?_, ?_, ?_, hloader, hcommand⟩
  · rw [State.fieldAfterMark_timer, State.takeMark_timer, State.timerMark_eq _ hline]
    obtain ⟨-, hrunning, -⟩ := hmark
    simp only [wraps, ended, behind, markOffset_eq]
    by_cases hended : s.timer.phase = .ended
    · simp [hended, EpochTimer.adopt, hrunning]
    · by_cases hjump : c.lockWindow < c.totalLines - s.timer.line
      · simp [hended, hjump, State.restarted, EpochTimer.adopt, hrunning]
      · by_cases hwrap : c.totalLines - s.timer.line ≤ c.slewLimit
        · simp [hended, hjump, hwrap, State.restarted, EpochTimer.adopt, hrunning]
        · simp [hended, hjump, hwrap, EpochTimer.adopt, hrunning]
  · refine Eq.trans (State.markPort_cue _ hline) ?_
    rw [decide_eq_true hactive]
    exact if_congr hwraps rfl rfl
  · rw [State.fieldAfterMark_pixel, State.takeMark_pixel, hpixel]
    exact if_congr hwraps rfl rfl
  · rw [State.fieldAfterMark, hbus]
    rfl

end Sys2Proof.Machine
end

section
/-! The whole mark, by station state (spec/06_peers_and_audits.md 6.7, spec/07_resynchronisation.md 7.2 and 7.6,
spec/08_station_lifecycle.md 8.3; R38, R102, R117 to R119, R128). -/

namespace Sys2Proof.Machine

-- One thread, as for the tests: proofs elaborated side by side would exceed the build's memory limit.
set_option Elab.async false

open Sys2Proof.Safety

/-! ### The acts as the statements name them -/

theorem storeAct_eq (s : State) (c : Settings) (others : Epoch) (t : State) :
    storeAct s c others t =
      t.storeMark c s.timer.line (adoptedEpoch s others) (offsetAt c s.timer.phase s.timer.line) := by
  rw [storeAct, markOffset_eq]

/-- The membership unit's act is the model's on every state of the mark of a station that is not LISTENING. -/
theorem memberAct_eq {s t : State} (c : Settings) (others : Epoch) (hloader : t.loader = s.loader)
    (hstate : t.station.state ≠ .listening) :
    memberAct s c others t = t.stationMark.memberMark c s.timer.epoch (adoptedEpoch s others) := by
  have hrank : s.rank? = t.rank? := by rw [State.rank?, State.rank?, hloader]
  rw [State.stationMark_of_not_listening hstate]
  unfold memberAct State.memberMark
  cases s.timer.epoch with
  | none =>
    simp only [windowOpened_eq]
    exact if_congr (auditEpoch_iff c _).symm rfl rfl
  | some old => rw [hrank]

/-! ### The place of a line's records (R150) -/

theorem insertIdx_eq_take_drop {α : Type} (a : α) {k : Nat} {l : List α} (h : k ≤ l.length) :
    l.insertIdx k a = l.take k ++ a :: l.drop k := by
  induction k generalizing l with
  | zero => rfl
  | succ k ih =>
    cases l with
    | nil => simp at h
    | cons b l => rw [List.insertIdx_succ_cons, ih (Nat.le_of_succ_le_succ h)]; rfl

theorem markPort_queuedAmong (s : State) (c : Settings) (adopted : Epoch) :
    QueuedAmong (begunRecords s c) (s.markActions c adopted) s (s.markPort c adopted) := by
  unfold State.markPort QueuedAmong
  simp only [markLineRecords_eq, actAll_eq]
  have hlength : (s.markActions c adopted).length = 4 := by
    rcases s.markActions_cases c adopted with h | ⟨-, h | h⟩ <;> rw [h] <;> rfl
  split
  next hnone => exact ⟨0, Nat.zero_le _, by rw [hnone]; rfl⟩
  next =>
    have hplace : Config.choice (s.choices + 1) % 5 < 5 := Nat.mod_lt _ (by decide)
    refine ⟨Config.choice (s.choices + 1) % 5, by omega, ?_⟩
    rw [insertIdx_eq_take_drop _ (by omega)]
    rfl

/-- Two lists of acts that agree along their run: act by act from the states of `P`, which are left for those of the next
predicate; a record queued between two acts changes nothing of that. -/
inductive Agree (records : List Record) :
    (State → Prop) → List (State → State) → List (State → State) → (State → Prop) → Prop
  | nil {P : State → Prop} (hqueue : ∀ t, P t → P (t.reportAll records)) : Agree records P [] [] P
  | cons {P Q R : State → Prop} {act act' : State → State} {acts acts' : List (State → State)}
      (hqueue : ∀ t, P t → P (t.reportAll records)) (hact : ∀ t, P t → act t = act' t ∧ Q (act t))
      (hacts : Agree records Q acts acts' R) : Agree records P (act :: acts) (act' :: acts') R

namespace Agree

variable {records : List Record} {P Q : State → Prop} {acts acts' : List (State → State)}

theorem length_eq (h : Agree records P acts acts' Q) : acts.length = acts'.length := by
  induction h with
  | nil => rfl
  | cons _ _ _ ih => rw [List.length_cons, List.length_cons, ih]

theorem queue (h : Agree records P acts acts' Q) {t : State} (ht : P t) : P (t.reportAll records) := by
  cases h with
  | nil hqueue | cons hqueue => exact hqueue t ht

theorem run (h : Agree records P acts acts' Q) {t : State} (ht : P t) : t.run acts = t.run acts' ∧ Q (t.run acts) := by
  induction h generalizing t with
  | nil => exact ⟨rfl, ht⟩
  | cons _ hact _ ih =>
    obtain ⟨heq, hnext⟩ := hact t ht
    rw [State.run_cons, State.run_cons, ← heq]
    exact ih hnext

/-- The records are queued at the same place of both lists. -/
theorem insert (h : Agree records P acts acts' Q) (k : Nat) :
    Agree records P (acts.take k ++ (fun t => t.reportAll records) :: acts.drop k)
      (acts'.take k ++ (fun t => t.reportAll records) :: acts'.drop k) Q := by
  induction h generalizing k with
  | nil hqueue =>
    rw [List.take_nil, List.drop_nil]
    exact .cons hqueue (fun t ht => ⟨rfl, hqueue t ht⟩) (.nil hqueue)
  | cons hqueue hact hacts ih =>
    cases k with
    | zero => exact .cons hqueue (fun t ht => ⟨rfl, hqueue t ht⟩) (.cons hqueue hact hacts)
    | succ k => exact .cons hqueue hact (ih k)

end Agree

theorem run_append (s : State) (acts acts' : List (State → State)) : s.run (acts ++ acts') = (s.run acts).run acts' :=
  List.foldl_append

section

variable {records : List Record} {P Q : State → Prop} {acts acts' : List (State → State)} {s : State} {port : SourcePort}

theorem QueuedAmong.congr (hacts : Agree records P acts acts' Q) (hs : P s) (h : QueuedAmong records acts s port) :
    QueuedAmong records acts' s port := by
  obtain ⟨k, hk, hport⟩ := h
  exact ⟨k, hacts.length_eq ▸ hk, hport.trans (congrArg State.port ((hacts.insert k).run hs).1)⟩

/-- An act that comes last and queues nothing need not be counted among the places. -/
theorem QueuedAmong.of_silent_last {act : State → State} (hacts : Agree records P acts acts' Q)
    (hsilent : ∀ t, Q t → (act t).port = t.port) (hs : P s) (h : QueuedAmong records (acts ++ [act]) s port) :
    QueuedAmong records acts' s port := by
  obtain ⟨k, hk, hport⟩ := h
  by_cases hle : k ≤ acts.length
  · obtain ⟨heq, hlast⟩ := (hacts.insert k).run hs
    refine ⟨k, hacts.length_eq ▸ hle, ?_⟩
    rw [hport, List.take_append_of_le_length hle, List.drop_append_of_le_length hle, ← List.cons_append,
      ← List.append_assoc, actAll_eq, actAll_eq, run_append]
    exact (hsilent _ hlast).trans (congrArg State.port heq)
  · have hend : k = acts.length + 1 := by
      rw [List.length_append, List.length_singleton] at hk
      omega
    obtain ⟨heq, hlast⟩ := hacts.run hs
    refine ⟨acts'.length, Nat.le_refl _, ?_⟩
    rw [hport, hend, List.take_of_length_le (by simp), List.drop_of_length_le (by simp), List.take_length,
      List.drop_length, actAll_eq, actAll_eq, run_append, run_append, run_append, ← heq]
    exact congrArg (SourcePort.enqueueAll · records) (hsilent _ hlast)

end

/-! ### What the membership unit does to the repair -/

theorem windowMark_repair (s : State) (c : Settings) (adopted : Epoch) :
    (s.windowMark c adopted).station = s.station ∧ (s.windowMark c adopted).resync = s.resync ∨
      s.station.state = .inStep ∧ (s.windowMark c adopted).station = { s.station with state := .diverged } ∧
        (s.windowMark c adopted).resync = s.resync.enterRepair := by
  have hclose : ∀ w, (s.closeWindow w).station = s.station ∧ (s.closeWindow w).resync = s.resync ∨
      s.station.state = .inStep ∧ (s.closeWindow w).station = { s.station with state := .diverged } ∧
        (s.closeWindow w).resync = s.resync.enterRepair := by
    intro w
    rcases s.closeWindow_cases w with ⟨-, hstate, heq⟩ | heq <;> rw [heq]
    · exact .inr ⟨hstate, rfl, rfl⟩
    · exact .inl ⟨rfl, rfl⟩
  unfold State.windowMark
  repeat' split
  · exact hclose _
  · exact .inl ⟨rfl, rfl⟩
  · exact hclose _
  · exact .inl ⟨rfl, rfl⟩
  · exact .inl ⟨rfl, rfl⟩

/-- The membership unit leaves the station and its repair, but for an IN STEP station that it makes DIVERGED. -/
theorem memberMark_repair (s : State) (c : Settings) (old : Option Epoch) (adopted : Epoch) :
    (s.memberMark c old adopted).station = s.station ∧ (s.memberMark c old adopted).resync = s.resync ∨
      s.station.state = .inStep ∧ (s.memberMark c old adopted).station = { s.station with state := .diverged } ∧
        (s.memberMark c old adopted).resync = s.resync.enterRepair := by
  cases old with
  | none =>
    simp only [State.memberMark]
    split <;> exact .inl ⟨rfl, rfl⟩
  | some old => exact windowMark_repair _ c adopted

theorem repeatRequest_of_pending {s : State} (c : Settings) (adopted : Epoch)
    (h : s.station.state.repairing = true → s.resync.requestPending = true) : s.repeatRequest c adopted = s := by
  unfold State.repeatRequest
  cases hrepairing : s.station.state.repairing with
  | false => rfl
  | true => simp [h hrepairing]

/-! ### A mark that promotes no station -/

/-- What holds along a mark: the configuration before it, a station that is not LISTENING, and for a station that was
repairing its state and its repair before the mark. -/
def Marking (s t : State) : Prop :=
  t.loader = s.loader ∧ t.station.state ≠ .listening ∧
    (s.station.state.repairing = true → t.station = s.station ∧ t.resync = s.resync)

theorem marking_self {s : State} (h : s.station.state ≠ .listening) : Marking s s := ⟨rfl, h, fun _ => ⟨rfl, rfl⟩⟩

section

variable {s : State} (c : Settings) (others : Epoch)

theorem timerAct_marking {t : State} (h : Marking s t) :
    t.timerMark c (adoptedEpoch s others) = timerAct s c others t ∧
      Marking s (t.timerMark c (adoptedEpoch s others)) := ⟨rfl, by simpa [Marking] using h⟩

theorem storeAct_marking {t : State} (h : Marking s t) :
    t.storeMark c s.timer.line (adoptedEpoch s others) (offsetAt c s.timer.phase s.timer.line) = storeAct s c others t ∧
      Marking s (t.storeMark c s.timer.line (adoptedEpoch s others) (offsetAt c s.timer.phase s.timer.line)) :=
  ⟨(storeAct_eq s c others t).symm, by simpa [Marking] using h⟩

theorem memberAct_marking {t : State} (h : Marking s t) :
    t.stationMark.memberMark c s.timer.epoch (adoptedEpoch s others) = memberAct s c others t ∧
      Marking s (t.stationMark.memberMark c s.timer.epoch (adoptedEpoch s others)) := by
  obtain ⟨hloader, hstate, hrepair⟩ := h
  refine ⟨(memberAct_eq c others hloader hstate).symm, by simpa using hloader, ?_⟩
  rw [State.stationMark_of_not_listening hstate]
  rcases memberMark_repair t c s.timer.epoch (adoptedEpoch s others) with ⟨hstation, hresync⟩ | ⟨hstep, hstation, -⟩
  · rw [hstation, hresync]
    exact ⟨hstate, hrepair⟩
  · refine ⟨by rw [hstation]; exact nofun, fun hrepairing => ?_⟩
    rw [(hrepair hrepairing).1] at hstep
    rw [hstep] at hrepairing
    cases hrepairing

/-- The acts of the timer, the store and the membership unit are the statements'. -/
theorem acts_agree (records : List Record) :
    Agree records (Marking s)
      [ fun t => t.timerMark c (adoptedEpoch s others),
        fun t => t.storeMark c s.timer.line (adoptedEpoch s others) (offsetAt c s.timer.phase s.timer.line),
        fun t => t.stationMark.memberMark c s.timer.epoch (adoptedEpoch s others) ]
      [timerAct s c others, storeAct s c others, memberAct s c others] (Marking s) :=
  .cons (fun _ h => h) (fun _ => timerAct_marking c others) <|
    .cons (fun _ h => h) (fun _ => storeAct_marking c others) <|
    .cons (fun _ h => h) (fun _ => memberAct_marking c others) <| .nil fun _ h => h

end

/-- A mark that promotes no station: the three units act, and then the wait is counted and the request repeated. -/
theorem takeMark_of_not_promoting {s : State} {c : Settings} (others : Epoch) (hstate : s.station.state ≠ .listening)
    (hpromotes : s.promotes c = false) :
    let acts := [timerAct s c others, storeAct s c others, memberAct s c others]
    ∃ port, QueuedAmong (begunRecords s c) acts s port ∧
      s.takeMark c (adoptedEpoch s others) =
        { ((actAll acts s).waitMark c s.station.state.repairing s.anyEligible).repeatRequest c (adoptedEpoch s others) with
          port := port
          choices := s.choices + if begunRecords s c = [] then 0 else 2 } ∧
      Marking s (actAll acts s) := by
  intro acts
  have hacts : s.markActions c (adoptedEpoch s others) =
      [ fun t => t.timerMark c (adoptedEpoch s others),
        fun t => t.storeMark c s.timer.line (adoptedEpoch s others) (offsetAt c s.timer.phase s.timer.line),
        fun t => t.stationMark.memberMark c s.timer.epoch (adoptedEpoch s others) ] ++
      [fun t => t.waitMark c s.station.state.repairing s.anyEligible] := by
    rcases s.markActions_cases c (adoptedEpoch s others) with h | ⟨h, -⟩
    · exact h
    · rw [hpromotes] at h; cases h
  obtain ⟨heq, hP⟩ := (acts_agree c others []).run (marking_self hstate)
  rw [heq] at hP
  refine ⟨s.markPort c (adoptedEpoch s others), ?_, ?_, hP⟩
  · have hqueued := markPort_queuedAmong s c (adoptedEpoch s others)
    rw [hacts] at hqueued
    refine QueuedAmong.of_silent_last (acts_agree c others _) (fun t ht => ?_) (marking_self hstate) hqueued
    rcases t.waitMark_cases c s.station.state.repairing s.anyEligible with ⟨hb, -, hwait, -⟩ | ⟨-, -, -, h⟩ | h
    · rw [(ht.2.2 hb).2] at hwait
      simp [State.promotes, hb, hwait] at hpromotes
    · rw [h]
    · rw [h]
  · have hchoices : s.markChoices c = if begunRecords s c = [] then 0 else 2 := by
      rw [State.markChoices, hpromotes, markLineRecords_eq]
      by_cases hnone : begunRecords s c = [] <;> simp [hnone]
    rw [State.takeMark, hacts, run_append, heq, hchoices]
    rfl

/-- Settles O46: a mark that promotes no station; the request is pending where the unit has made the station DIVERGED. -/
theorem marksRunTheMembershipUnit : Obligations.MarksRunTheMembershipUnit := by
  intro s c others hmark hstate acts marked
  have hrepairing : s.station.state.repairing = false := by rcases hstate with h | h <;> rw [h] <;> rfl
  have hlistening : s.station.state ≠ .listening := by rcases hstate with h | h <;> rw [h] <;> exact nofun
  obtain ⟨port, hport, htake, -⟩ := takeMark_of_not_promoting (c := c) others hlistening
    (by rw [State.promotes, hrepairing, Bool.false_and])
  refine ⟨port, hport, ?_⟩
  rw [exec_next_iff, after_mark others hmark, htake, hrepairing]
  have hwait : marked.waitMark c false s.anyEligible = { marked with resync := { marked.resync with epochBlock := false } } :=
    rfl
  have hrepeat : (marked.waitMark c false s.anyEligible).repeatRequest c (adoptedEpoch s others) =
      marked.waitMark c false s.anyEligible := by
    refine repeatRequest_of_pending _ _ fun h => ?_
    have hmarked : marked = State.memberMark (storeAct s c others (timerAct s c others s)) c s.timer.epoch
        (adoptedEpoch s others) := by
      refine (memberAct_eq c others ?_ ?_).trans (congrArg (State.memberMark · c _ _) (State.stationMark_of_not_listening ?_))
      all_goals simp [storeAct, timerAct, hlistening]
    rw [hwait] at h ⊢
    change marked.station.state.repairing = true at h
    change marked.resync.requestPending = true
    rw [hmarked] at h ⊢
    rcases memberMark_repair (storeAct s c others (timerAct s c others s)) c s.timer.epoch (adoptedEpoch s others) with
      ⟨hkept, -⟩ | ⟨-, -, hresync⟩
    · rw [hkept] at h
      simp [storeAct, timerAct, hrepairing] at h
    · rw [hresync]
      rfl
  rw [show actAll acts s = marked from rfl, hrepeat, hwait]
  rfl

end Sys2Proof.Machine
end

section
/-! A mark in LISTENING, JOINING and DIVERGED (spec/07_resynchronisation.md 7.2, 7.6 and 7.7, spec/08_station_lifecycle.md 8.3;
R117 to R119, R128). -/

namespace Sys2Proof.Machine

-- One thread, as for the tests: proofs elaborated side by side would exceed the build's memory limit.
set_option Elab.async false

open Sys2Proof.Safety

/-! ### LISTENING (R128) -/

theorem waitMark_idle {s : State} (c : Settings) (eligibleBefore : Bool) (h : s.resync.epochBlock = false) :
    s.waitMark c false eligibleBefore = s := by
  change { s with resync := { s.resync with epochBlock := false } } = s
  rw [← h]

/-- Settles O42: with the staging CLOSED and the epoch unknown, the store opens, the station joins and the unit at most opens
a window. -/
theorem theFirstMarkMakesAListenerJoin : Obligations.TheFirstMarkMakesAListenerJoin := by
  intro s c others hmark hlistening hsound
  obtain ⟨hconfig, -⟩ := id hmark
  obtain ⟨hknown, -, hunknown, -⟩ := hsound
  have hepoch : s.timer.epoch = none := hunknown (by rw [State.active, hlistening]; rfl) (by rw [hlistening]; exact nofun)
  have hoff : s.store.staging = false := by rw [← hknown, hepoch]; rfl
  obtain ⟨u, hu⟩ : ∃ u : State, u = State.storeMark (s.timerMark c (adoptedEpoch s others)) c s.timer.line
      (adoptedEpoch s others) (offsetAt c s.timer.phase s.timer.line) := ⟨_, rfl⟩
  have hopened : u = { s.timerMark c (adoptedEpoch s others) with store := s.store.openStaging } := by
    rw [hu, State.storeMark, if_neg (by simp [hoff])]
    simp
  have hjoined : u.stationMark = u.enterJoining := if_pos (by simp [hopened, hlistening])
  have hmembers : u.enterJoining.members = withOwnEntry s (activeEntry .joining) := by
    rw [withOwnEntry_eq]
    simp [hopened, State.rank?]
    rfl
  have hresync : u.enterJoining.resync = emptiedResync s.resync true false := by
    simp [hopened]
    rfl
  have hmember : (u.enterJoining.memberMark c none (adoptedEpoch s others)).resync = emptiedResync s.resync true false := by
    rcases memberMark_repair u.enterJoining c none (adoptedEpoch s others) with ⟨-, h⟩ | ⟨h, -⟩
    · rw [h, hresync]
    · cases h
  have hrun : s.run (s.markActions c (adoptedEpoch s others)) =
      u.enterJoining.memberMark c none (adoptedEpoch s others) := by
    rw [s.markActions_of_not_repairing (by rw [hlistening]; rfl), State.run_cons, State.run_cons, ← hu, State.run_cons, hjoined,
      hepoch, hlistening]
    exact waitMark_idle c s.anyEligible (by rw [hmember]; rfl)
  have hrepeat : (s.run (s.markActions c (adoptedEpoch s others))).repeatRequest c (adoptedEpoch s others) =
      u.enterJoining.memberMark c none (adoptedEpoch s others) := by
    rw [hrun, repeatRequest_of_pending _ _ fun _ => by rw [hmember]; rfl]
  refine ⟨_, exec_eq_next _ s, ?_⟩
  rw [after_mark others hmark]
  refine ⟨State.takeMark_of_listening hlistening c _, (congrArg State.resync hrepeat).trans hmember,
    (congrArg State.members hrepeat).trans ?_⟩
  have haudit := auditEpoch_iff c (adoptedEpoch s others)
  unfold State.memberMark
  by_cases h : auditEpoch c (adoptedEpoch s others) = true
  · rw [if_pos h, if_pos (haudit.mp h), ← hmembers]
    rfl
  · rw [if_neg h, if_neg (haudit.not.mp h), ← hmembers]

/-! ### The provider wait (R118) -/

theorem anyEligible_eq_false (s : State) :
    s.anyEligible = false ↔ ∀ r : Fin 16, eligibleEntry s (BitVec.ofFin r) = false := by
  unfold State.anyEligible
  rw [allRanks_eq, List.any_map, List.any_eq_false]
  simp only [List.mem_finRange, true_implies, Function.comp_apply, ← eligibleEntry_eq, Bool.not_eq_true]

theorem waitAfter_eq (s : State) :
    s.resync.waitAfter s.anyEligible =
      if s.resync.epochBlock = false ∧ ∀ r : Fin 16, eligibleEntry s (BitVec.ofFin r) = false then s.resync.wait + 1
      else 0 := by
  unfold ResyncUnit.waitAfter
  rw [← ite_not]
  refine if_congr ?_ rfl rfl
  rw [Bool.or_eq_true, not_or, Bool.not_eq_true, Bool.not_eq_true, anyEligible_eq_false]

theorem promotes_iff {s : State} {c : Settings} (hrepairing : s.station.state.repairing = true) :
    s.promotes c = true ↔ c.silenceLimit ≤ s.resync.waitAfter s.anyEligible := by
  rw [State.promotes, hrepairing, Bool.true_and, decide_eq_true_eq]

/-! ### Self-promotion (R119) -/

/-- A repairing station's mark before its self-promotion: its own rank has no entry in the tally (R121). -/
def Waiting (s : State) (c : Settings) (t : State) : Prop := Marking s t ∧ atRank t.members.tally c.rank = none

/-- A station in the mark of its self-promotion, once it was promoted. -/
def Promoted (s : State) (c : Settings) (t : State) : Prop :=
  t.loader = s.loader ∧ t.station = { s.station with state := .inStep } ∧ t.resync = s.resync.leaveRepair ∧
    atRank t.members.tally c.rank = none ∧ (t.peer c.rank).presence = .present ∧
    (t.peer c.rank).reported = some .inStep ∧ (t.peer c.rank).verdict = .none ∧ (t.peer c.rank).requester = false

theorem storeMark_tables (s : State) (c : Settings) (line : Nat) (adopted : Epoch) (offset : Int) :
    (s.storeMark c line adopted offset).members.table = s.members.table ∧
      (s.storeMark c line adopted offset).members.tally = s.members.tally := by
  have hbuild (m : Membership) (digest : Digest) :
      (m.buildRecord digest).table = m.table ∧ (m.buildRecord digest).tally = m.tally := by
    rcases m.buildRecord_cases digest with h | ⟨w, -, ⟨-, h⟩ | ⟨-, h⟩⟩ <;> rw [h] <;> exact ⟨rfl, rfl⟩
  have happly (t : State) (torn : Bool) :
      (t.applyClosed torn).members.table = t.members.table ∧ (t.applyClosed torn).members.tally = t.members.tally := by
    rcases t.applyClosed_cases torn with ⟨-, h⟩ | ⟨g, -, h⟩ <;> rw [h]
    · exact ⟨rfl, rfl⟩
    · exact hbuild _ _
  simp only [State.storeMark, State.closeGeneration]
  repeat' split
  all_goals simp [happly]

theorem openWindow_tally (s : State) (adopted : Epoch) (r : Rank) : atRank (s.openWindow adopted).members.tally r = none := by
  unfold State.openWindow Membership.openWindow
  cases s.station.state <;> cases s.store.closed <;> exact AuditParts.emptyTally_entry r

theorem windowMark_tally {s : State} {c : Settings} (adopted : Epoch) {r : Rank} (h : atRank s.members.tally r = none) :
    atRank (s.windowMark c adopted).members.tally r = none := by
  have hclose (w : AuditWindow) : atRank (s.closeWindow w).members.tally r = none := by
    rcases s.closeWindow_cases w with ⟨-, -, heq⟩ | heq <;> rw [heq]
    · rw [show (State.diverge _ _).members.tally = _ from (Membership.updateOwn_frame _ _ _).2.2.2]
      exact AuditParts.emptyTally_entry r
    · exact AuditParts.emptyTally_entry r
  unfold State.windowMark
  repeat' split
  · exact openWindow_tally ..
  · exact h
  · exact hclose _
  · exact openWindow_tally ..
  · exact h

/-- A mark enters nothing in the tally. -/
theorem memberMark_tally {s : State} (c : Settings) (old : Option Epoch) (adopted : Epoch) {r : Rank}
    (h : atRank s.members.tally r = none) : atRank (s.memberMark c old adopted).members.tally r = none := by
  cases old with
  | none =>
    rw [State.memberMark.eq_def]
    dsimp only
    split
    · exact openWindow_tally ..
    · exact h
  | some old =>
    refine windowMark_tally _ ?_
    simpa [State.checkSilence] using h

section

variable {s t : State} {c : Settings}

theorem Promoted.rank (hconfig : s.loader.config = some c) (h : Promoted s c t) : t.rank? = some c.rank := by
  rw [State.rank?, h.1, hconfig]
  rfl

/-- The own entry has no vote in the decision, which leaves its verdict NONE. -/
theorem Promoted.decide_entry (h : Promoted s c t) : atRank t.members.decide.table c.rank = t.peer c.rank := by
  obtain ⟨-, -, -, htally, hpresent, hreported, hverdict, -⟩ := h
  unfold Membership.decide
  cases referenceDigest (tallyEntries t.members.tally) with
  | none => rfl
  | some reference =>
    rw [atRank_ofRanks, htally]
    simp only [Peer.judge]
    change (if (t.peer c.rank).presence = .present && (t.peer c.rank).reported = some .inStep then
      { t.peer c.rank with verdict := .none } else t.peer c.rank) = t.peer c.rank
    rw [← hverdict, ite_self]

theorem Promoted.closeWindow (hconfig : s.loader.config = some c) (h : Promoted s c t) (w : AuditWindow) :
    Promoted s c (t.closeWindow w) := by
  have hentry := h.decide_entry
  obtain ⟨hloader, hstation, hresync, -, hpresent, hreported, hverdict, hrequester⟩ := id h
  rcases t.closeWindow_cases w with ⟨hmismatch, -⟩ | heq
  · rw [Membership.ownMismatch, h.rank hconfig, Option.elim_some, hentry, hverdict] at hmismatch
    simp at hmismatch
  · rw [heq]
    refine ⟨hloader, hstation, hresync, AuditParts.emptyTally_entry _, ?_⟩
    change (atRank t.members.decide.table c.rank).presence = _ ∧ (atRank t.members.decide.table c.rank).reported = _ ∧
      (atRank t.members.decide.table c.rank).verdict = _ ∧ (atRank t.members.decide.table c.rank).requester = _
    rw [hentry]
    exact ⟨hpresent, hreported, hverdict, hrequester⟩

theorem Promoted.openWindow (adopted : Epoch) (h : Promoted s c t) : Promoted s c (t.openWindow adopted) := by
  obtain ⟨hloader, hstation, hresync, -, hentry⟩ := h
  refine ⟨hloader, hstation, hresync, ?_, ?_⟩
  · unfold State.openWindow Membership.openWindow
    cases t.station.state <;> cases t.store.closed <;> exact AuditParts.emptyTally_entry _
  · simpa [State.peer, State.openWindow] using hentry

theorem Promoted.windowMark (hconfig : s.loader.config = some c) (adopted : Epoch) (h : Promoted s c t) :
    Promoted s c (t.windowMark c adopted) := by
  unfold State.windowMark
  repeat' split
  · exact (h.closeWindow hconfig _).openWindow adopted
  · exact h
  · exact h.closeWindow hconfig _
  · exact h.openWindow adopted
  · exact h

/-- The renumbering and the silence check leave the own entry. -/
theorem Promoted.checkSilence (hconfig : s.loader.config = some c) (old adopted : Epoch) (h : Promoted s c t) :
    Promoted s c (State.checkSilence { t with members := t.members.renumber t.rank? old adopted } c adopted) := by
  have hrank := h.rank hconfig
  obtain ⟨hloader, hstation, hresync, htally, hentry⟩ := h
  have hother (p : Peer) : otherPresent (some c.rank) c.rank p = false := by simp [otherPresent]
  have hkept : atRank ((t.members.renumber t.rank? old adopted).silenceCheck c t.rank? adopted).table c.rank =
      t.peer c.rank := by
    rw [Membership.silenceCheck_entry, if_neg fun hs => silent_other hs hrank, Membership.renumber_entry, hrank, hother,
      if_neg fun h => absurd h.2 nofun]
    rfl
  refine ⟨hloader, hstation, hresync, ?_, ?_⟩
  · simpa [State.checkSilence] using htally
  · simp only [State.peer] at hentry ⊢
    rw [State.checkSilence]
    exact hkept ▸ hentry

theorem Promoted.storeMark (line : Nat) (adopted : Epoch) (offset : Int) (h : Promoted s c t) :
    Promoted s c (t.storeMark c line adopted offset) := by
  obtain ⟨htable, htally⟩ := storeMark_tables t c line adopted offset
  simpa [Promoted, State.peer, htable, htally] using h

/-- A promoted station stays so. -/
theorem Promoted.memberMark (hconfig : s.loader.config = some c) (old : Option Epoch) (adopted : Epoch)
    (h : Promoted s c t) : Promoted s c (t.memberMark c old adopted) := by
  cases old with
  | none =>
    rw [State.memberMark.eq_def]
    dsimp only
    split
    · exact h.openWindow adopted
    · exact h
  | some old => exact (h.checkSilence hconfig old adopted).windowMark hconfig adopted

end

section

variable {s : State} {c : Settings} (others : Epoch)

theorem timerAct_waiting {t : State} (h : Waiting s c t) :
    t.timerMark c (adoptedEpoch s others) = timerAct s c others t ∧
      Waiting s c (t.timerMark c (adoptedEpoch s others)) :=
  ⟨rfl, (timerAct_marking c others h.1).2, by simpa using h.2⟩

theorem storeAct_waiting {t : State} (h : Waiting s c t) :
    t.storeMark c s.timer.line (adoptedEpoch s others) (offsetAt c s.timer.phase s.timer.line) = storeAct s c others t ∧
      Waiting s c (t.storeMark c s.timer.line (adoptedEpoch s others) (offsetAt c s.timer.phase s.timer.line)) := by
  obtain ⟨heq, hmarking⟩ := storeAct_marking c others h.1
  exact ⟨heq, hmarking, by rw [(storeMark_tables ..).2, h.2]⟩

theorem memberAct_waiting {t : State} (h : Waiting s c t) :
    t.stationMark.memberMark c s.timer.epoch (adoptedEpoch s others) = memberAct s c others t ∧
      Waiting s c (t.stationMark.memberMark c s.timer.epoch (adoptedEpoch s others)) := by
  obtain ⟨heq, hmarking⟩ := memberAct_marking c others h.1
  refine ⟨heq, hmarking, ?_⟩
  rw [State.stationMark_of_not_listening h.1.2.1]
  exact memberMark_tally c _ _ h.2

/-- The resync unit's act is the promotion (R119). -/
theorem waitMark_waiting (hconfig : s.loader.config = some c) (hpromotes : s.promotes c = true) {t : State}
    (h : Waiting s c t) :
    t.waitMark c s.station.state.repairing s.anyEligible = repairedState t .selfPromoted ∧
      Promoted s c (t.waitMark c s.station.state.repairing s.anyEligible) := by
  obtain ⟨⟨hloader, -, hrepair⟩, htally⟩ := h
  obtain ⟨hrepairing, hlimit⟩ : s.station.state.repairing = true ∧ c.silenceLimit ≤ s.resync.waitAfter s.anyEligible := by
    simpa [State.promotes] using hpromotes
  obtain ⟨hstation, hresync⟩ := hrepair hrepairing
  have hrank : t.rank? = some c.rank := by rw [State.rank?, hloader, hconfig]; rfl
  have hwait : t.waitMark c s.station.state.repairing s.anyEligible = t.repaired .selfPromoted := by
    unfold State.waitMark
    rw [hrepairing, Bool.true_and, if_pos (by rw [hstation, hrepairing]), hresync]
    simp only
    rw [if_pos hlimit]
    simp only [State.repaired, ResyncUnit.leaveRepair, hresync]
    rfl
  rw [hwait]
  refine ⟨(repairedState_eq t _).symm, hloader, ?_, ?_, ?_⟩
  · rw [State.repaired, hstation]
  · rw [State.repaired, hresync]
  · simp [State.repaired, hrank, State.peer, Membership.updateOwn, Peer.ownInStep, Peer.ownActive, Membership.update]
    exact htally

theorem storeAct_promoted {t : State} (h : Promoted s c t) :
    t.storeMark c s.timer.line (adoptedEpoch s others) (offsetAt c s.timer.phase s.timer.line) = storeAct s c others t ∧
      Promoted s c (t.storeMark c s.timer.line (adoptedEpoch s others) (offsetAt c s.timer.phase s.timer.line)) :=
  ⟨(storeAct_eq s c others t).symm, h.storeMark ..⟩

theorem memberAct_promoted (hconfig : s.loader.config = some c) {t : State} (h : Promoted s c t) :
    t.stationMark.memberMark c s.timer.epoch (adoptedEpoch s others) = memberAct s c others t ∧
      Promoted s c (t.stationMark.memberMark c s.timer.epoch (adoptedEpoch s others)) := by
  obtain ⟨hloader, hstation, -⟩ := id h
  have hlistening : t.station.state ≠ .listening := by rw [hstation]; exact nofun
  refine ⟨(memberAct_eq c others hloader hlistening).symm, ?_⟩
  rw [State.stationMark_of_not_listening hlistening]
  exact h.memberMark hconfig _ _

/-- The promotion stands after the timer's act, in any order with the store's and the membership unit's (log 9). -/
theorem promotion_agree (hconfig : s.loader.config = some c) (hpromotes : s.promotes c = true)
    (records : List Record) :
    ∃ acts ∈ [
        [timerAct s c others, fun t => repairedState t .selfPromoted, storeAct s c others, memberAct s c others],
        [timerAct s c others, storeAct s c others, fun t => repairedState t .selfPromoted, memberAct s c others],
        [timerAct s c others, storeAct s c others, memberAct s c others, fun t => repairedState t .selfPromoted]],
      Agree records (Waiting s c) (s.markActions c (adoptedEpoch s others)) acts (Promoted s c) := by
  have htimer := fun t (h : Waiting s c t) => timerAct_waiting others h
  have hstore := fun t (h : Waiting s c t) => storeAct_waiting others h
  have hmembers := fun t (h : Waiting s c t) => memberAct_waiting others h
  have hpromotion := fun t (h : Waiting s c t) => waitMark_waiting hconfig hpromotes h
  have hstore' := fun t (h : Promoted s c t) => storeAct_promoted others h
  have hmembers' := fun t (h : Promoted s c t) => memberAct_promoted others hconfig h
  have hqueue : ∀ t, Waiting s c t → Waiting s c (t.reportAll records) := fun t h => h
  have hqueue' : ∀ t, Promoted s c t → Promoted s c (t.reportAll records) := fun t h => h
  rcases s.markActions_cases c (adoptedEpoch s others) with h | ⟨-, h | h⟩ <;> rw [h]
  · exact ⟨_, .tail _ (.tail _ (.head _)), .cons hqueue htimer <| .cons hqueue hstore <| .cons hqueue hmembers <|
      .cons hqueue hpromotion <| .nil hqueue'⟩
  · exact ⟨_, .head _, .cons hqueue htimer <| .cons hqueue hpromotion <| .cons hqueue' hstore' <|
      .cons hqueue' hmembers' <| .nil hqueue'⟩
  · exact ⟨_, .tail _ (.head _), .cons hqueue htimer <| .cons hqueue hstore <| .cons hqueue hpromotion <|
      .cons hqueue' hmembers' <| .nil hqueue'⟩

end

/-- Settles O47: below S the mark promotes no station, and at S the acts are those of one of the three orders. -/
theorem repairingStationsWaitAndPromote : Obligations.RepairingStationsWaitAndPromote := by
  intro s c others hmark hstate _ stalled wait timer store members promotion
  have hrepairing : s.station.state.repairing = true := by rcases hstate with h | h <;> rw [h] <;> rfl
  have hlistening : s.station.state ≠ .listening := by rcases hstate with h | h <;> rw [h] <;> exact nofun
  have hwait : s.resync.waitAfter s.anyEligible = wait := waitAfter_eq s
  refine ⟨fun hbelow => ?_, fun hlimit htally => ?_⟩
  · intro marked
    obtain ⟨port, hport, htake, -, -, hmarked⟩ := takeMark_of_not_promoting (c := c) others hlistening (by
      rw [← Bool.not_eq_true, promotes_iff hrepairing, hwait]
      exact Nat.not_le.mpr hbelow)
    obtain ⟨hstation, hresync⟩ := hmarked hrepairing
    refine ⟨hstation, port, hport, ?_⟩
    rw [exec_next_iff, after_mark others hmark, htake]
    have hcount : (actAll [timer, store, members] s).waitMark c s.station.state.repairing s.anyEligible =
        { marked with resync := { s.resync with epochBlock := false, wait := wait } } := by
      unfold State.waitMark
      rw [show actAll [timer, store, members] s = marked from rfl, hstation, hresync, hrepairing, hwait]
      simp [Nat.not_le.mpr hbelow]
    have hrepeat : State.repeatRequest { marked with resync := { s.resync with epochBlock := false, wait := wait } } c
        (adoptedEpoch s others) =
        { marked with
          resync :=
            { s.resync with
              wait := wait
              epochBlock := false
              requestPending := s.resync.requestPending ||
                ((adoptedEpoch s others).toNat % c.auditInterval = 0 && !s.resync.blockSeen) } } := by
      unfold State.repeatRequest auditEpoch
      rw [show marked.station.state.repairing = true by rw [hstation, hrepairing], Bool.true_and]
      cases hrequest : s.resync.requestPending <;> cases hseen : s.resync.blockSeen <;>
        by_cases haudit : (adoptedEpoch s others).toNat % c.auditInterval = 0 <;> simp [hrequest, hseen, haudit]
    rw [hcount, hrepeat]
    rfl
  · have hpromotes : s.promotes c = true := by rwa [promotes_iff hrepairing, hwait]
    obtain ⟨hconfig, -⟩ := id hmark
    obtain ⟨acts, hacts, hagree⟩ := promotion_agree others hconfig hpromotes (begunRecords s c)
    have hs : Waiting s c s := ⟨marking_self hlistening, htally⟩
    obtain ⟨heq, hpromoted⟩ := hagree.run hs
    rw [heq] at hpromoted
    have hrepeat : State.repeatRequest (actAll acts s) c (adoptedEpoch s others) = actAll acts s :=
      repeatRequest_of_pending _ _ fun h => by
        rw [actAll_eq, hpromoted.2.1] at h
        cases h
    have htake : s.takeMark c (adoptedEpoch s others) =
        { actAll acts s with port := s.markPort c (adoptedEpoch s others), choices := s.choices + 2 } := by
      rw [State.takeMark, heq, ← actAll_eq, hrepeat, State.markChoices, hpromotes]
      rfl
    obtain ⟨-, hstation, hresync, -, hpresent, hreported, hverdict, hrequester⟩ := hpromoted
    refine ⟨acts, hacts, hstation, hresync, hpresent, hreported, hverdict, hrequester, _,
      QueuedAmong.congr hagree hs (markPort_queuedAmong s c _), ?_⟩
    rw [exec_next_iff, after_mark others hmark, htake]
    rfl

end Sys2Proof.Machine
end

section
/-! The source port's commands (spec/09_the_source_port_commands_and_reports.md 9.1, 9.3, 9.4, spec/08_station_lifecycle.md
8.6; R73, R134, R139, R142 to R145, R148, R149). -/

namespace Sys2Proof.Machine

-- One thread, as for the tests: proofs elaborated side by side would exceed the build's memory limit.
set_option Elab.async false

open Sys2Proof.Safety

/-! ### STATUS (R148) -/

theorem vector_toList_eq {α : Type} {n : Nat} (v : Vector α n) : v.toList = (List.finRange n).map fun i => v[i] := by
  refine List.ext_getElem (by simp) fun i h h' => ?_
  simp

theorem receivedCount_eq (r : ResyncUnit) :
    r.receivedCount = ((List.finRange 66).filter fun b => r.received[b]).length := by
  rw [ResyncUnit.receivedCount, vector_toList_eq, List.count_eq_countP, List.countP_map, ← List.countP_eq_length_filter]
  exact List.countP_congr fun b _ => by simp

/-- Settles O13: the record's fields, one by one. -/
theorem statusReportsEveryField : Obligations.StatusReportsEveryField := by
  intro s payload tag hcomplete
  have hfields : s.afterCommand.statusFields =
      { state := s.station.state
        rank := s.loader.config.map Settings.rank
        epoch := s.timer.epoch
        lastOffset := s.timer.lastOffset
        occupancy := s.command.queue.length
        inFlight := s.command.inFlight
        suspect := s.bus.suspect
        requester :=
          match s.loader.config with
          | some c => s.members.table[c.rank.toNat].requester
          | none => false
        receivedBlocks := ((List.finRange 66).filter fun b => s.resync.received[b]).length
        cursor := s.resync.cursor.val
        membership := (List.finRange 16).map fun r =>
          ⟨s.members.table[r].presence, s.members.table[r].reported, s.members.table[r].verdict⟩ } := by
    have hrequester : s.ownRequester =
        match s.loader.config with
        | some c => s.members.table[c.rank.toNat].requester
        | none => false := by
      unfold State.ownRequester State.rank?
      cases s.loader.config <;> rfl
    rw [State.statusFields, receivedCount_eq, allRanks_eq, List.map_map, ← hrequester]
    rfl
  rw [exec_status_of_completes hcomplete, if_pos rfl, hfields]
  rfl

/-! ### The item-making commands (R73, R142 to R145) -/

/-- A command that no test of R140 refuses asks for items, which are queued with their account (R73). -/
theorem takeRequest_of_accepted {s : State} {kind : Nat} {args : List Word} {request : Request} (tag : Tag)
    (hkind : itemMaking kind = true) (hrequest : request.Follows kind args) (h : refusal s kind args = none) :
    ∃ items, request = .items items ∧ items.length = itemCount kind args ∧
      s.takeRequest tag request = s.accept tag items := by
  rw [refusal_itemMaking s hkind hrequest] at h
  cases request with
  | malformed => cases h
  | outOfRange =>
    rw [Request.refusal] at h
    split at h <;> cases h
  | items items =>
    obtain ⟨-, -, hcount⟩ := hrequest
    refine ⟨items, rfl, hcount, ?_⟩
    simp only [Request.refusal] at h
    split at h
    next => cases h
    next hactive =>
      split at h
      next => cases h
      next hfit =>
        rw [State.takeRequest, if_neg hactive, if_pos]
        simp only [CommandUnit.freeCapacity, Config.queueCapacity]
        omega

/-- Item by item, the SET SLOTs of a run of colours (R142). -/
theorem slotItems_getElem? {first : Nat} {colours : List Word} {items : List Item}
    (h : slotItems first colours = some items) {k : Nat} {w : Word} (hw : colours[k]? = some w) :
    ∃ hslot : first + k < 260, items[k]? = some (.setSlot ⟨first + k, hslot⟩ (wordColour w)) := by
  induction colours generalizing first items k with
  | nil => simp at hw
  | cons w' rest ih =>
    simp only [slotItems] at h
    split at h
    next hfirst =>
      obtain ⟨items', hrest, rfl⟩ := Option.map_eq_some_iff.mp h
      cases k with
      | zero =>
        cases hw
        exact ⟨hfirst, rfl⟩
      | succ k =>
        obtain ⟨hslot, hitem⟩ := ih hrest hw
        refine ⟨by omega, ?_⟩
        rw [List.getElem?_cons_succ, hitem]
        simp only [Nat.add_assoc, Nat.add_comm 1 k]
    next => cases h

theorem wordColour_eq (w : Word) :
    wordColour w = ⟨BitVec.ofNat 8 (w.toNat / 65536), BitVec.ofNat 8 (w.toNat / 256), BitVec.ofNat 8 w.toNat⟩ := by
  simp only [wordColour, Colour.mk.injEq]
  refine ⟨?_, ?_, ?_⟩ <;> apply BitVec.eq_of_toNat_eq <;>
    simp [BitVec.extractLsb'_toNat, Nat.shiftRight_eq_div_pow]

theorem slotItems_of_setColorsRequest {w : Word} {colours : List Word} {made : List Item}
    (h : setColorsRequest (w :: colours) = .items made) : slotItems (high16 w) colours = some made := by
  simp only [setColorsRequest, firstSlot_eq_high16] at h
  split at h
  next => cases h
  next =>
    split at h
    next => cases h
    next =>
      split at h
      next items hitems => cases h; exact hitems
      next => cases h

/-- The items a SET COLORS makes are those whose colours and slots are its words'. -/
theorem setColors_items {w : Word} {colours : List Word} {made items : List Item}
    (h : slotItems (high16 w) colours = some made) (hlength : items.length = made.length)
    (hitems : ∀ (k : Nat) (colour : Word), colours[k]? = some colour →
      ∃ hslot : high16 w + k < 260, items[k]? = some (.setSlot ⟨high16 w + k, hslot⟩
        ⟨BitVec.ofNat 8 (colour.toNat / 65536), BitVec.ofNat 8 (colour.toNat / 256), BitVec.ofNat 8 colour.toNat⟩)) :
    items = made := by
  refine List.ext_getElem? fun k => ?_
  cases hcolour : colours[k]? with
  | some colour =>
    obtain ⟨_, hitem⟩ := hitems k colour hcolour
    obtain ⟨_, hmade⟩ := slotItems_getElem? h hcolour
    rw [hitem, hmade, wordColour_eq]
  | none =>
    have hbeyond : made.length ≤ k := by
      rw [slotItems_length h]
      exact List.getElem?_eq_none_iff.mp hcolour
    rw [List.getElem?_eq_none (hlength ▸ hbeyond), List.getElem?_eq_none hbeyond]

/-- The point of a MOVE POINTER (R170). -/
theorem position_eq (w : Word) :
    (w.extractLsb' 16 15 : BitVec 15) = BitVec.ofNat 15 (high16 w) ∧
      (w.extractLsb' 0 15 : BitVec 15) = BitVec.ofNat 15 (low16 w) := by
  constructor <;> apply BitVec.eq_of_toNat_eq
  · simp [high16, Nat.shiftRight_eq_div_pow]
  · simp only [BitVec.extractLsb'_toNat, BitVec.toNat_ofNat, low16, Nat.shiftRight_zero]
    omega

theorem readVisibility_eq {b : Byte} {v : Visibility} (h : readVisibility b = some v) :
    v = if b.toNat = 0 then .hidden else .shown := by
  unfold readVisibility at h
  split at h
  next hzero => cases h; rw [if_pos (by rw [hzero]; rfl)]
  next =>
    split at h
    next hone => cases h; rw [if_neg (by rw [hone]; decide)]
    next => cases h

/-- Settles O9: each row accepts what its request makes, which are the items of the statement. -/
theorem itemCommandsAreAccepted : Obligations.ItemCommandsAreAccepted := by
  intro s payload tag args accepted
  refine ⟨fun items hcomplete hnone hlength hitems => ?_, ?_, ?_, ?_⟩
  · obtain ⟨made, hmade, hcount, htake⟩ := takeRequest_of_accepted (s := s.afterCommand) tag rfl
      (setColorsRequest_follows args) hnone
    rw [exec_setColors_of_completes hcomplete, htake]
    cases args with
    | nil => cases hmade
    | cons w colours =>
      rw [setColors_items (slotItems_of_setColorsRequest hmade) (hlength.trans hcount.symm) hitems]
      rfl
  · rintro w high low hrow rfl hcomplete hnone
    obtain ⟨made, hmade, -, htake⟩ := takeRequest_of_accepted (s := s.afterCommand) tag rfl
      (setPointerRowRequest_follows _) hnone
    rw [exec_setPointerRow_of_completes hcomplete, htake]
    simp only [setPointerRowRequest, low8_eq, hrow, dite_true, Request.items.injEq] at hmade
    rw [← hmade]
    rfl
  · rintro w rfl hcomplete hnone
    obtain ⟨made, hmade, -, htake⟩ := takeRequest_of_accepted (s := s.afterCommand) tag rfl
      (movePointerRequest_follows _) hnone
    rw [exec_movePointer_of_completes hcomplete, htake]
    simp only [movePointerRequest, position_eq] at hmade
    split at hmade
    next => cases hmade
    next => cases hmade; rfl
  · rintro w rfl hcomplete hnone
    obtain ⟨made, hmade, -, htake⟩ := takeRequest_of_accepted (s := s.afterCommand) tag rfl
      (pointerVisibilityRequest_follows _) hnone
    rw [exec_pointerVisibility_of_completes hcomplete, htake]
    simp only [pointerVisibilityRequest] at hmade
    split at hmade
    next v hv =>
      cases hmade
      rw [readVisibility_eq hv, low8_eq]
      rfl
    next => cases hmade

/-! ### The assembly of a command (R139) -/

/-- The command a port holds after a command word: still incomplete, or none once its words have come (R139). -/
def heldAfter (held : Option Assembly) (w : Word) : Option Assembly :=
  match held with
  | none => if 0 < low8 w then some ⟨w, []⟩ else none
  | some a => if a.args.length + 1 < low8 a.head then some ⟨a.head, a.args ++ [w]⟩ else none

theorem Assembly.close_eq (a : Assembly) :
    a.close = if a.args.length < low8 a.head then .incomplete a else .complete ⟨headKind a.head, headTag a.head, a.args⟩ := by
  rw [Assembly.close, headLength, low8_eq, ← ite_not]
  exact if_congr Nat.not_le rfl rfl

theorem heldAfter_eq (held : Option Assembly) (w : Word) :
    heldAfter held w =
      match assemble held w with
      | .incomplete a => some a
      | .complete _ => none := by
  cases held with
  | none =>
    rw [assemble, Assembly.close_eq, heldAfter]
    by_cases h : 0 < low8 w <;> simp [h]
  | some a =>
    rw [assemble, Assembly.close_eq, heldAfter]
    by_cases h : a.args.length + 1 < low8 a.head <;> simp [h]

theorem after_commandWord {s : State} {w : Word} {a : Assembly} (h : heldAfter s.port.assembly w = some a) :
    exec (.commandWord w) s = .next { s with port := { s.port with assembly := some a } } := by
  rw [heldAfter_eq] at h
  change Host.Outcome.next (match assemble s.port.assembly w with
    | .incomplete a => { s with port := { s.port with assembly := some a } }
    | .complete _ => s) = _
  cases hassemble : assemble s.port.assembly w with
  | incomplete held =>
    rw [hassemble] at h
    cases h
    rfl
  | complete command =>
    rw [hassemble] at h
    cases h

/-- No command that is taken leaves an incomplete one at the port. -/
theorem takeRequest_assembly (s : State) (tag : Tag) (request : Request) :
    (s.takeRequest tag request).port.assembly = s.port.assembly := by
  rcases s.takeRequest_cases tag request with ⟨reason, h⟩ | ⟨items, -, -, -, h⟩ <;> simp [h]

theorem readTarget_assembly (s : State) (tag : Tag) (args : List Word) :
    (s.readTarget tag args).port.assembly = s.port.assembly := by
  obtain ⟨r, h⟩ := s.readTarget_eq_report tag args
  rw [h]
  exact SourcePort.enqueue_assembly ..

theorem completed_assembly {s : State} {w : Word} {command : Command}
    (h : assemble s.port.assembly w = .complete command) :
    (s.after (match commandKind command.kind with
      | none => .unknownCommand w
      | some .setColors => .setColors w
      | some .setPointerRow => .setPointerRow w
      | some .movePointer => .movePointer w
      | some .pointerVisibility => .pointerVisibility w
      | some .withdraw => .withdraw w
      | some .readTarget => .readTarget w
      | some .status => .status w
      | some .rejoin => .rejoin w)).port.assembly = none := by
  have htaken {kind : Option CommandKind} (hkind : commandKind command.kind = kind) (act : State → Command → State)
      (hact : ∀ t : State, (act t command).port.assembly = t.port.assembly) :
      (s.takeCommand w kind act).port.assembly = none := by
    rw [State.takeCommand_of_completes (kind := command.kind) (tag := command.tag) (args := command.args) h hkind, hact]
  cases hkind : commandKind command.kind with
  | none => exact htaken hkind _ fun t => SourcePort.enqueue_assembly ..
  | some kind =>
    cases kind with
    | setColors | setPointerRow | movePointer | pointerVisibility =>
      exact htaken hkind _ fun t => takeRequest_assembly ..
    | readTarget => exact htaken hkind _ fun t => readTarget_assembly ..
    | withdraw | status | rejoin =>
      refine htaken hkind _ fun t => ?_
      repeat' split
      all_goals simp [State.withdraw, State.rejoin, State.refuse]

/-- Settles O7: the port's two rows for an incomplete command, and every row for the last word of a command. -/
theorem commandWordsAreAssembled : Obligations.CommandWordsAreAssembled := by
  refine ⟨fun s w hfree hargs => after_commandWord ?_, fun s w a ha hargs => after_commandWord ?_, fun s word hcommand => ?_⟩
  · rw [hfree, heldAfter, if_pos hargs]
  · rw [ha, heldAfter]
    exact if_pos hargs
  · refine ⟨_, exec_eq_next _ s, ?_⟩
    have hword : word.truncate 32 = word.extractLsb' 0 32 := BitVec.setWidth_eq_extractLsb' (by decide)
    rw [hword]
    change _ = heldAfter s.port.assembly (word.extractLsb' 0 32)
    rw [heldAfter_eq]
    unfold State.forwardRow
    simp only [hcommand, if_true]
    cases hassemble : assemble s.port.assembly (word.extractLsb' 0 32) with
    | incomplete held => simp [State.after, exec, execCommandWord, hassemble]
    | complete command => exact completed_assembly hassemble

/-! ### REJOIN (R134, R149) -/

/-- What a station has driven so far is a first part of the field, in the order its bits are sent (R53, R55, R56). -/
theorem drivenPart_drivenSoFar (s : State) : DrivenPart s s.drivenSoFar := by
  unfold DrivenPart
  by_cases h : Drives s ∧ s.bus.round = .fields
  · have hdrives : s.drives = true := (drives_iff s).mpr h.1
    have hfields : s.inFields = true := by simp [State.inFields, hdrives, h.2]
    rw [if_pos h]
    unfold State.drivenSoFar
    simp only [hfields, if_true]
    cases s.bus.field with
    | origin =>
      refine ⟨Config.choice s.choices % 5, by omega, fun i hi => ?_⟩
      rw [highBits_getLsbD _ _ _ (by omega), Bool.or_comm, BitVec.getLsbD_setWidth]
      simp [show i < 16 by omega]
    | epoch =>
      refine ⟨Config.choice s.choices % 17, by omega, fun i hi => ?_⟩
      rw [highBits_getLsbD _ _ _ (by omega), Bool.or_comm, State.epochDrive, if_pos hdrives]
      cases s.timer.epoch with
      | none =>
        rw [show (Option.map (· + 1) (none : Option Epoch)).getD (recessiveField 16) = BitVec.allOnes 16 from rfl,
          BitVec.getLsbD_allOnes, decide_eq_true hi]
        rfl
      | some e => rfl
    | selected =>
      refine ⟨1 + Config.choice s.choices % 16, by omega, by omega, fun r => ?_⟩
      rw [lowBits_getLsbD _ _ r.isLt, reservationDrive_bit, Bool.or_comm]
    | markSlot | reservation => rfl
  · have houtside : s.inFields = false := by
      rw [← Bool.not_eq_true, State.inFields, Bool.and_eq_true, drives_iff, decide_eq_true_eq]
      exact h
    rw [if_neg h, State.drivenSoFar_of_outside houtside]

/-- Settles O14: the row refuses or takes the REJOIN by the station state. -/
theorem rejoinRestartsTheStation : Obligations.RejoinRestartsTheStation := by
  intro s payload tag hcomplete
  rw [exec_rejoin_of_completes hcomplete, if_neg (by simp)]
  refine ⟨fun hstate => ?_, fun hconfiguring hfault => ⟨s.drivenSoFar, drivenPart_drivenSoFar s, ?_⟩⟩
  · have hrefused : ¬s.station.state.permitsRejoin = true := by rcases hstate with h | h <;> rw [h] <;> exact nofun
    rw [if_neg hrefused]
    rfl
  · have htaken : s.station.state.permitsRejoin = true := by
      cases hs : s.station.state <;> simp_all [StationState.permitsRejoin]
    rw [if_pos htaken]
    have hchoices : (if s.inFields then 1 else 0) = if Drives s ∧ s.bus.round = .fields then 1 else 0 :=
      if_congr (by rw [State.inFields, Bool.and_eq_true, drives_iff, decide_eq_true_eq]) rfl rfl
    have hsettled : s.command.dropAll.2 = s.command.accounts.map fun a =>
        Record.settled a.tag a.posted (a.removed + (a.made - a.posted - a.removed)) a.lastPosting := by
      rw [CommandUnit.dropAll, removeBehind_zero, List.map_map]
      rfl
    rw [← hchoices, ← hsettled]
    cases hdrive : s.bus.drive <;> simp [State.rejoin, BusController.silence, hdrive, Drive.silenced] <;>
      exact ⟨rfl, rfl, rfl, rfl, rfl, rfl⟩

end Sys2Proof.Machine
end

section
/-! The configuration record and the video output (spec/11_configuration_record_and_formats.md 11.1,
spec/10_the_pixel_path.md 10.2 and 10.3; R136, R160 to R162, R165, R166). -/

namespace Sys2Proof.Machine

-- One thread, as for the tests: proofs elaborated side by side would exceed the build's memory limit.
set_option Elab.async false

open Sys2Proof.Safety

/-! ### The configuration record (R165, R166) -/

theorem toNat_foldl_add (l : List Byte) (b : Byte) :
    (l.foldl (· + ·) b).toNat = (b.toNat + (l.map BitVec.toNat).sum) % 256 := by
  induction l generalizing b with
  | nil =>
    rw [List.foldl_nil, List.map_nil, List.sum_nil, Nat.add_zero, Nat.mod_eq_of_lt b.isLt]
  | cons b' l ih =>
    rw [List.foldl_cons, ih, List.map_cons, List.sum_cons, BitVec.toNat_add]
    omega

theorem take_eq_map_getD {bytes : List Byte} {n : Nat} (h : n ≤ bytes.length) :
    bytes.take n = (List.range n).map fun i => bytes.getD i 0 := by
  refine List.ext_getElem (by simp [h]) fun i hi hi' => ?_
  have hi'' : i < bytes.length := by
    rw [List.length_take] at hi
    omega
  rw [List.getElem_take, List.getElem_map, List.getElem_range, List.getD_eq_getElem _ _ hi'']

/-- The check byte as the statement sums it. -/
theorem toNat_recordSum {bytes : List Byte} (h : 17 ≤ bytes.length) :
    (recordSum bytes).toNat = ((List.range 17).map (recordByte bytes)).sum % 256 := by
  rw [recordSum, toNat_foldl_add, take_eq_map_getD h, List.map_map]
  simp only [BitVec.ofNat_eq_ofNat, BitVec.toNat_ofNat, Nat.zero_mod, Nat.zero_add]
  rfl

theorem recordPresent_iff (bytes : List Byte) :
    (!recordPresent bytes) = true ↔ bytes.length < 18 ∨ recordByte bytes 0 ≠ 0xA7 := by
  have hfirst : bytes.getD 0 0 = 0xA7#8 ↔ recordByte bytes 0 = 0xA7 := BitVec.toNat_inj.symm
  simp only [recordPresent, Bool.not_eq_true', Bool.and_eq_false_iff, decide_eq_false_iff_not, hfirst, Nat.not_le, ne_eq]

theorem recordInRange_iff (bytes : List Byte) :
    recordInRange bytes = true ↔
      let byte := recordByte bytes
      let ox := recordNumber bytes 2; let oy := recordNumber bytes 4; let W := recordNumber bytes 6
      let T := recordNumber bytes 8; let A := recordNumber bytes 10
      let K := byte 13; let S := byte 14; let slew := byte 15; let lock := byte 16
      byte 1 ≤ 15 ∧ ox ≤ 32767 ∧ oy ≤ 32767 ∧ (64 ≤ W ∧ W ≤ 4096) ∧ (16 ≤ T ∧ T ≤ 4095) ∧ (8 ≤ A ∧ A ≤ T - 8) ∧
        (byte 12 = 0 ∨ byte 12 = 1) ∧ (K = 2 ∨ K = 4 ∨ K = 8 ∨ K = 16 ∨ K = 32 ∨ K = 64) ∧
        (2 * K + 2 ≤ S ∧ S ≤ 255) ∧ (1 ≤ slew ∧ slew ≤ 8) ∧ (slew ≤ lock ∧ lock ≤ min 64 (T - A)) := by
  simp only [recordInRange, settingsInRange, Bool.and_eq_true, decide_eq_true_eq, List.contains_iff_mem, List.mem_cons,
    List.not_mem_nil, or_false]
  simp only [settingsOf]
  omega

/-- Settles O4: test by test. -/
theorem recordTestsInOrder : Obligations.RecordTestsInOrder := by
  refine ⟨rfl, fun bytes => ?_⟩
  intro byte two ox oy W T A K S slew lock
  rw [validate]
  by_cases habsent : bytes.length < 18 ∨ byte 0 ≠ 0xA7
  · rw [if_pos habsent, if_pos ((recordPresent_iff bytes).mpr habsent)]
  · rw [if_neg habsent, if_neg (fun h => habsent ((recordPresent_iff bytes).mp h))]
    have hlength : 17 ≤ bytes.length := by omega
    have hsum : bytes.getD 17 0 ≠ recordSum bytes ↔ byte 17 ≠ ((List.range 17).map byte).sum % 256 := by
      rw [ne_eq, ← BitVec.toNat_inj, toNat_recordSum hlength]
      rfl
    refine if_congr hsum rfl ?_
    have hrange := recordInRange_iff bytes
    cases hin : recordInRange bytes with
    | true => exact (if_pos (hrange.mp hin)).symm
    | false => exact (if_neg (hrange.not.mp (by rw [hin]; exact nofun))).symm

/-! ### The video output (R136, R160 to R162) -/

theorem slot_eq_getElem (w : WallState) {n : Nat} (h : n < 260) : w.slots.toList.getD n black = w.slots[n] := by
  rw [List.getD_eq_getElem _ _ (by simpa using h)]
  simp

theorem toNat_rowCode (row : RowCodes) (column : Fin 32) :
    (rowCode row column).toNat = row.toNat / 4 ^ (31 - column.val) % 4 := by
  have hshift : (4 : Nat) ^ (31 - column.val) = 2 ^ (62 - 2 * column.val) := by
    rw [show (4 : Nat) = 2 ^ 2 from rfl, ← pow_mul]
    congr 1
    omega
  rw [rowCode, BitVec.extractLsb'_toNat, Nat.shiftRight_eq_div_pow, hshift]

theorem coveredCell_eq_some_iff {start cell : Nat} {k : Fin 32} :
    coveredCell start cell = some k ↔ start ≤ cell ∧ cell ≤ start + 31 ∧ cell ≤ 32767 ∧ k.val = cell - start := by
  unfold coveredCell
  simp only [Bool.and_eq_true, decide_eq_true_eq]
  split
  next h =>
    split
    next hcell =>
      simp only [Option.some.injEq, Fin.ext_iff]
      omega
    next hcell =>
      simp only [reduceCtorEq, false_iff]
      omega
  next h =>
    simp only [reduceCtorEq, false_iff]
    omega

/-- The pointer's code as the statement reads it: two bits of the row, where the pointer covers (R4, R161). -/
theorem toNat_pointerCode (w : WallState) (x y : Nat) :
    (w.pointerCode x y).toNat =
      if (w.visibility = .shown && w.position.x.toNat ≤ x && x ≤ w.position.x.toNat + 31 && x ≤ 32767 &&
          w.position.y.toNat ≤ y && y ≤ w.position.y.toNat + 31 && y ≤ 32767) = true then
        (w.rows.toList.getD (y - w.position.y.toNat) 0).toNat / 4 ^ (31 - (x - w.position.x.toNat)) % 4
      else 0 := by
  simp only [Bool.and_eq_true, decide_eq_true_eq, and_assoc]
  unfold WallState.pointerCode
  split
  next column row hshown hcolumn hrow =>
    obtain ⟨hx, hx', hx'', hcolumn⟩ := coveredCell_eq_some_iff.mp hcolumn
    obtain ⟨hy, hy', hy'', hrow⟩ := coveredCell_eq_some_iff.mp hrow
    rw [if_pos ⟨hshown, hx, hx', hx'', hy, hy', hy''⟩, toNat_rowCode, hcolumn, ← hrow,
      List.getD_eq_getElem _ _ (by simp)]
    simp
  next hcover =>
    rw [if_neg]
    · rfl
    · rintro ⟨hshown, hx, hx', hx'', hy, hy', hy''⟩
      exact hcover ⟨x - w.position.x.toNat, by omega⟩ ⟨y - w.position.y.toNat, by omega⟩ hshown
        (coveredCell_eq_some_iff.mpr ⟨hx, hx', hx'', rfl⟩) (coveredCell_eq_some_iff.mpr ⟨hy, hy', hy'', rfl⟩)

theorem baseColour_eq (w : WallState) (pixel : Option Pixel) :
    baseColour w pixel =
      match pixel with
      | none => w.slots.toList.getD 256 black
      | some (.index i) => w.slots.toList.getD i.toNat black
      | some (.direct overlay colour) => if overlay = 0 then colour else w.slots.toList.getD overlay.toNat black := by
  have hpalette (i : Byte) : w.slots.toList.getD i.toNat black = w.palette i := slot_eq_getElem w (by omega)
  cases pixel with
  | none => exact (slot_eq_getElem w (by decide)).symm
  | some p =>
    cases p with
    | index i => exact (hpalette i).symm
    | direct overlay colour => exact if_congr Iff.rfl rfl (hpalette overlay).symm

theorem compose_eq (s : State) (c : Settings) (u : Nat) :
    compose c s.store.wall s.pixel.shown u s.timer.line = composedPixel s c u := by
  unfold compose composedPixel
  simp only [← toNat_pointerCode]
  generalize s.store.wall.pointerCode (c.originX + u) (c.originY + s.timer.line) = code
  by_cases hcode : code = 0
  · subst hcode
    simp only [if_true]
    rw [if_neg (by simp)]
    exact baseColour_eq _ _
  · have hne : code.toNat ≠ 0 := fun h => hcode (BitVec.eq_of_toNat_eq h)
    rw [if_neg hcode, if_pos hne, slot_eq_getElem _ (by omega)]
    rfl

theorem videoOut_eq {s : State} {c : Settings} (u : Nat) (hconfig : s.loader.config = some c) :
    s.videoOut u =
      if s.timer.running = true ∧ s.timer.line < c.activeLines ∧ u < c.width then
        if s.station.state.composing then some (composedPixel s c u) else some black
      else none := by
  unfold State.videoOut
  simp only [hconfig, compose_eq, Bool.and_eq_true, decide_eq_true_eq, and_assoc]

/-- Settles O51, by the one condition under which a pixel is output. -/
theorem theOutputFollowsTheState : Obligations.TheOutputFollowsTheState := by
  intro s c u hconfig
  rw [videoOut_eq u hconfig]
  refine ⟨fun hout => if_neg ?_, fun hrunning hline hwidth => ?_⟩
  · rintro ⟨hrunning, hline, hwidth⟩
    rcases hout with h | h | h
    · rw [hrunning] at h; cases h
    · omega
    · omega
  · rw [if_pos ⟨hrunning, hline, hwidth⟩]
    refine ⟨fun hstate => ?_, fun hstate => ?_⟩
    · rcases hstate with h | h <;> rw [h] <;> rfl
    · rcases hstate with h | h | h <;> rw [h] <;> rfl

end Sys2Proof.Machine
end

section
/-! Messages, written and read back (spec/04_the_wall_bus.md 4.5 and 4.7, spec/11_configuration_record_and_formats.md 11.2;
R61, R66, R167 to R169). -/

namespace Sys2Proof.Machine

-- One thread, as for the tests: proofs elaborated side by side would exceed the build's memory limit.
set_option Elab.async false

open Sys2Proof.Safety

/-! ### Numbers in bytes (R164) -/

theorem readTwo_twoBytes (v : BitVec 16) : readTwo (v.extractLsb' 8 8) (v.extractLsb' 0 8) = v := by
  rw [readTwo, BitVec.extractLsb'_append_extractLsb'_eq_extractLsb' (by rfl)]
  simp

theorem readFour_fourBytes (v : BitVec 32) :
    (v.extractLsb' 24 8 ++ v.extractLsb' 16 8 ++ v.extractLsb' 8 8 ++ v.extractLsb' 0 8 : BitVec 32) = v := by
  rw [BitVec.extractLsb'_append_extractLsb'_eq_extractLsb' (by rfl),
    BitVec.extractLsb'_append_extractLsb'_eq_extractLsb' (by rfl),
    BitVec.extractLsb'_append_extractLsb'_eq_extractLsb' (by rfl)]
  simp

theorem readRow_rowBytes (row : RowCodes) :
    readRow (row.extractLsb' 56 8) (row.extractLsb' 48 8) (row.extractLsb' 40 8) (row.extractLsb' 32 8)
      (row.extractLsb' 24 8) (row.extractLsb' 16 8) (row.extractLsb' 8 8) (row.extractLsb' 0 8) = row := by
  unfold readRow
  rw [BitVec.extractLsb'_append_extractLsb'_eq_extractLsb' (by rfl),
    BitVec.extractLsb'_append_extractLsb'_eq_extractLsb' (by rfl),
    BitVec.extractLsb'_append_extractLsb'_eq_extractLsb' (by rfl),
    BitVec.extractLsb'_append_extractLsb'_eq_extractLsb' (by rfl),
    BitVec.extractLsb'_append_extractLsb'_eq_extractLsb' (by rfl),
    BitVec.extractLsb'_append_extractLsb'_eq_extractLsb' (by rfl),
    BitVec.extractLsb'_append_extractLsb'_eq_extractLsb' (by rfl)]
  simp

theorem readCoordinate_twoBytes (x : BitVec 15) :
    readCoordinate ((x.zeroExtend 16).extractLsb' 8 8) ((x.zeroExtend 16).extractLsb' 0 8) = some x := by
  have hmsb : (x.zeroExtend 16).msb = false := by
    rw [BitVec.msb_eq_decide]
    have := x.isLt
    simp
    omega
  rw [readCoordinate, readTwo_twoBytes, if_neg (by rw [hmsb]; exact nofun)]
  simp

theorem readPosition_valueBytes (p : Position) :
    readPosition ((p.x.zeroExtend 16).extractLsb' 8 8) ((p.x.zeroExtend 16).extractLsb' 0 8)
      ((p.y.zeroExtend 16).extractLsb' 8 8) ((p.y.zeroExtend 16).extractLsb' 0 8) = some p := by
  rw [readPosition, readCoordinate_twoBytes, readCoordinate_twoBytes]

theorem readVisibility_visibilityByte (v : Visibility) : readVisibility (visibilityByte v) = some v := by
  cases v <;> rfl

/-! ### Items (R168) -/

theorem slotNumber_bytes (n : Nat) (h : n < 260) :
    slotNumber (BitVec.ofNat 8 (n / 256)) (BitVec.ofNat 8 (n % 256)) = n := by
  simp only [slotNumber, BitVec.extractLsb'_toNat, BitVec.toNat_ofNat, Nat.shiftRight_zero]
  omega

/-- An item is read back as itself, with the bytes after it. -/
theorem readItem_bytes (i : Item) (rest : List Byte) : readItem (i.bytes ++ rest) = some (i, rest) := by
  cases i with
  | setSlot s c =>
    have hhead : (BitVec.ofNat 8 (s.val / 256)).extractLsb' 6 2 = 0#2 := by
      apply BitVec.eq_of_toNat_eq
      simp only [BitVec.extractLsb'_toNat, BitVec.toNat_ofNat, Nat.shiftRight_eq_div_pow]
      omega
    have hnumber := slotNumber_bytes s.val s.isLt
    simp [Item.bytes, readItem, hhead, hnumber]
  | setRow r codes =>
    have hrow : r.val % 256 = r.val := Nat.mod_eq_of_lt (by omega)
    simp [Item.bytes, readItem, rowBytes, readRow_rowBytes, hrow]
  | setPosition p =>
    simp [Item.bytes, readItem, Item.valueBytes, twoBytes, readPosition_valueBytes]
  | setVisibility v =>
    simp [Item.bytes, readItem, readVisibility_visibilityByte]

theorem Item.bytes_length (i : Item) : 2 ≤ i.bytes.length ∧ i.bytes.length ≤ 10 := by
  cases i <;> simp [Item.bytes, Item.valueBytes, rowBytes, twoBytes]

theorem readItems_bytes {items : List Item} {limit : Nat} (h : items.length ≤ limit) :
    readItems limit (items.flatMap Item.bytes) = some items := by
  induction items generalizing limit with
  | nil => cases limit <;> rfl
  | cons i items ih =>
    obtain ⟨limit, rfl⟩ := Nat.exists_eq_add_of_le' (Nat.one_le_iff_ne_zero.mpr (Nat.ne_of_gt (Nat.lt_of_lt_of_le (Nat.succ_pos _) h)))
    have hitem := readItem_bytes i (items.flatMap Item.bytes)
    have hsome := (Item.bytes_length i).1
    rw [List.flatMap_cons]
    cases hbytes : i.bytes ++ items.flatMap Item.bytes with
    | nil => simp_all
    | cons b rest =>
      rw [hbytes] at hitem
      simp only [readItems, hitem, ih (Nat.le_of_succ_le_succ h), Option.map_some]

theorem flatMap_bytes_length (items : List Item) : (items.flatMap Item.bytes).length ≤ 10 * items.length := by
  induction items with
  | nil => simp
  | cons i items ih =>
    have := (Item.bytes_length i).2
    rw [List.flatMap_cons, List.length_append, List.length_cons]
    omega

/-! ### State blocks (R169) -/

theorem readColours_bytes {values : List Item} (h : ∀ i ∈ values, ∃ s, i.target = .slot s) :
    readColours (values.map Item.target) (values.flatMap Item.valueBytes) = some values := by
  induction values with
  | nil => rfl
  | cons i values ih =>
    obtain ⟨⟨s, hs⟩, hvalues⟩ := List.forall_mem_cons.mp h
    cases i with
    | setSlot s' c => simp [Item.valueBytes, Item.target, readColours, ih hvalues]
    | setRow _ _ | setPosition _ | setVisibility _ => cases hs

theorem blockTargets_of_slots {b : Fin 66} (h : b.val ≤ 32) :
    (∀ t ∈ blockTargets b, ∃ s, t = .slot s) ∧ (blockTargets b).length ≤ 8 := by
  unfold blockTargets
  split
  · simp
  · rw [if_pos (by omega)]
    simp

theorem blockTargets_of_row {b : Fin 66} (h : ¬b.val ≤ 32) (h' : b.val < 65) :
    blockTargets b = [.row ⟨b.val - 33, by omega⟩] := by
  rw [blockTargets, dif_neg (by omega), if_neg (by omega), dif_pos h']

theorem blockTargets_of_pointer {b : Fin 66} (h : ¬b.val < 65) : blockTargets b = [.position, .visibility] := by
  rw [blockTargets, dif_neg (by omega), if_neg (by omega), dif_neg h]

theorem valueBytes_length_of_slots {values : List Item} (h : ∀ i ∈ values, ∃ s, i.target = .slot s) :
    (values.flatMap Item.valueBytes).length = 3 * values.length := by
  induction values with
  | nil => rfl
  | cons i values ih =>
    obtain ⟨⟨s, hs⟩, hvalues⟩ := List.forall_mem_cons.mp h
    rw [List.flatMap_cons, List.length_append, ih hvalues]
    cases i with
    | setSlot s' c => simp only [Item.valueBytes, List.length_cons, List.length_nil]; omega
    | setRow _ _ | setPosition _ | setVisibility _ => cases hs

/-- The values of a block's own targets are read back, from at most 24 bytes. -/
theorem readBlockValues_bytes {b : Fin 66} {values : List Item} (h : values.map Item.target = blockTargets b) :
    readBlockValues b (values.flatMap Item.valueBytes) = some values ∧ (values.flatMap Item.valueBytes).length ≤ 24 := by
  unfold readBlockValues
  by_cases hslots : b.val ≤ 32
  · obtain ⟨htargets, hlength⟩ := blockTargets_of_slots hslots
    have hvalues : ∀ i ∈ values, ∃ s, i.target = .slot s := fun i hi =>
      htargets _ (h ▸ List.mem_map_of_mem hi)
    have hcount : values.length ≤ 8 := by
      rw [← h, List.length_map] at hlength
      exact hlength
    rw [if_pos hslots, ← h, readColours_bytes hvalues, valueBytes_length_of_slots hvalues]
    exact ⟨rfl, by omega⟩
  · rw [if_neg hslots]
    by_cases hrow : b.val < 65
    · rw [dif_pos hrow]
      rw [blockTargets_of_row hslots hrow] at h
      obtain ⟨i, rfl, hi⟩ := List.map_eq_singleton_iff.mp h
      cases i with
      | setRow r codes =>
        cases hi
        simp [Item.valueBytes, rowBytes, readRow_rowBytes]
      | setSlot _ _ | setPosition _ | setVisibility _ => cases hi
    · rw [dif_neg hrow]
      rw [blockTargets_of_pointer hrow] at h
      obtain ⟨i, rest, rfl, hi, hrest⟩ := List.map_eq_cons_iff.mp h
      obtain ⟨j, rfl, hj⟩ := List.map_eq_singleton_iff.mp hrest
      cases i with
      | setPosition p =>
        cases j with
        | setVisibility v =>
          simp [Item.valueBytes, twoBytes, readPosition_valueBytes, readVisibility_visibilityByte]
        | setSlot _ _ | setRow _ _ | setPosition _ => cases hj
      | setSlot _ _ | setRow _ _ | setVisibility _ => cases hi

/-! ### Bodies and messages (R66, R167) -/

theorem readBody_bytes {body : Body} (h : body.wellFormed = true) :
    readBody body.kind body.bytes = some body ∧ body.bytes.length ≤ 40 := by
  cases body with
  | update items =>
    obtain ⟨hsome, hlimit⟩ : 1 ≤ items.length ∧ items.length ≤ 4 := by simpa [Body.wellFormed] using h
    have hlength := flatMap_bytes_length items
    have hne : items.flatMap Item.bytes ≠ [] := by
      obtain ⟨i, rest, rfl⟩ := List.exists_cons_of_length_pos hsome
      intro hnil
      have hitem := (Item.bytes_length i).1
      rw [List.flatMap_cons, List.append_eq_nil_iff] at hnil
      rw [hnil.1] at hitem
      simp at hitem
    change (if items.flatMap Item.bytes = [] then none else (readItems 4 (items.flatMap Item.bytes)).map Body.update) = _ ∧
      (items.flatMap Item.bytes).length ≤ 40
    rw [if_neg hne, readItems_bytes hlimit]
    exact ⟨rfl, by omega⟩
  | audit epoch digest =>
    cases digest with
    | none => simp [Body.kind, Body.bytes, readBody, twoBytes, readTwo_twoBytes]
    | some digest =>
      simp [Body.kind, Body.bytes, readBody, twoBytes, fourBytes, readTwo_twoBytes, readFour_fourBytes]
  | resyncRequest | resyncDone => exact ⟨rfl, by decide⟩
  | block b epoch values =>
    have htargets : values.map Item.target = blockTargets b := by simpa [Body.wellFormed] using h
    obtain ⟨hread, hlength⟩ := readBlockValues_bytes htargets
    have hnumber : b.val % 256 = b.val := Nat.mod_eq_of_lt (by omega)
    simp [Body.kind, Body.bytes, readBody, twoBytes, readTwo_twoBytes, hnumber, hread]
    simp at hlength
    omega

theorem readKind_code (kind : MessageKind) : readKind kind.code = some kind := by
  cases kind <;> rfl

theorem readReported_code (state : Reported) : readReported state.code = some state := by
  cases state <;> rfl

theorem extractLsb'_halves (a b : BitVec 4) :
    (a ++ b : BitVec 8).extractLsb' 0 4 = b ∧ (a ++ b : BitVec 8).extractLsb' 4 4 = a := by
  constructor <;> refine BitVec.eq_of_getLsbD_eq fun i hi => ?_
  · rw [BitVec.getLsbD_extractLsb', BitVec.getLsbD_append]
    simp [hi]
  · rw [BitVec.getLsbD_extractLsb', BitVec.getLsbD_append]
    simp [hi]

/-- Header and body are read back, the body length being below 256. -/
theorem readContent_bytes {m : Message} (h : m.body.wellFormed = true) :
    readContent (m.headerBytes ++ m.body.bytes) = some m := by
  obtain ⟨hbody, hlength⟩ := readBody_bytes h
  have hwho : (m.rank ++ m.state.code).extractLsb' 0 4 = m.state.code ∧ (m.rank ++ m.state.code).extractLsb' 4 4 = m.rank :=
    extractLsb'_halves m.rank m.state.code
  have hmod : m.body.bytes.length % 256 = m.body.bytes.length := Nat.mod_eq_of_lt (by omega)
  simp [Message.headerBytes, twoBytes, readContent, hmod, readKind_code, hwho, readReported_code, hbody, readTwo_twoBytes]

theorem readMessage_append (content : List Byte) :
    readMessage (content ++ twoBytes (crc16 content)) = readContent content := by
  have hcontent : (content ++ twoBytes (crc16 content)).length - 2 = content.length := by simp [twoBytes]
  rw [readMessage, hcontent, List.take_left, List.drop_left]
  exact if_pos rfl

/-- Settles O52: header and body are read back, and the check is that of the bytes before it. -/
theorem messagesReadBackAsSent : Obligations.MessagesReadBackAsSent := by
  intro m h
  have hread : readMessage m.bytes = some m := (readMessage_append _).trans (readContent_bytes h)
  refine ⟨hread, ?_, ?_, (readBody_bytes h).2⟩
  · simp [classify, hread]
  · simp [Message.bytes, Message.headerBytes, twoBytes]

/-! ### What is read (R66) -/

theorem readItem_length {bytes rest : List Byte} {i : Item} (h : readItem bytes = some (i, rest)) :
    bytes.length ≤ rest.length + 10 := by
  unfold readItem at h
  split at h
  next => cases h
  next =>
    split at h
    next =>
      split at h
      next =>
        split at h
        next => cases h; simp
        next => cases h
      next => cases h
    next =>
      split at h
      next =>
        split at h
        next =>
          split at h
          next => cases h; simp
          next => cases h
        next => cases h
      next =>
        split at h
        next =>
          split at h
          next =>
            obtain ⟨p, -, heq⟩ := Option.map_eq_some_iff.mp h
            cases heq
            simp
          next => cases h
        next =>
          split at h
          next =>
            obtain ⟨v, -, heq⟩ := Option.map_eq_some_iff.mp h
            cases heq
            simp
          next => cases h

theorem readItems_some {limit : Nat} {bytes : List Byte} {items : List Item} (h : readItems limit bytes = some items) :
    items.length ≤ limit ∧ bytes.length ≤ 10 * items.length := by
  induction limit generalizing bytes items with
  | zero =>
    cases bytes with
    | nil => cases h; exact ⟨Nat.le_refl _, Nat.le_refl _⟩
    | cons b rest => cases h
  | succ limit ih =>
    cases bytes with
    | nil => cases h; exact ⟨Nat.zero_le _, Nat.le_refl _⟩
    | cons b rest =>
      rw [readItems] at h
      split at h
      next => cases h
      next i rest' hitem =>
        obtain ⟨items', hrest, rfl⟩ := Option.map_eq_some_iff.mp h
        obtain ⟨hlimit, hbytes⟩ := ih hrest
        have hlength := readItem_length hitem
        rw [List.length_cons (as := items')]
        omega

theorem readColours_some {targets : List Target} {bytes : List Byte} {values : List Item}
    (h : readColours targets bytes = some values) :
    values.map Item.target = targets ∧ bytes.length = 3 * targets.length := by
  induction targets, bytes using readColours.induct generalizing values with
  | case1 => cases h; exact ⟨rfl, rfl⟩
  | case2 s targets r g b rest ih =>
    rw [readColours] at h
    obtain ⟨values', hrest, rfl⟩ := Option.map_eq_some_iff.mp h
    obtain ⟨htargets, hlength⟩ := ih hrest
    simp only [List.map_cons, Item.target, htargets, List.length_cons, true_and]
    omega
  | case3 => simp_all [readColours]

theorem readBlockValues_some {b : Fin 66} {bytes : List Byte} {values : List Item}
    (h : readBlockValues b bytes = some values) : values.map Item.target = blockTargets b ∧ bytes.length ≤ 24 := by
  unfold readBlockValues at h
  split at h
  next hslots =>
    obtain ⟨htargets, hlength⟩ := readColours_some h
    have hcount := (blockTargets_of_slots hslots).2
    exact ⟨htargets, by omega⟩
  next hslots =>
    split at h
    next hrow =>
      rw [blockTargets_of_row hslots hrow]
      split at h
      next => cases h; exact ⟨rfl, by simp⟩
      next => cases h
    next hrow =>
      rw [blockTargets_of_pointer hrow]
      split at h
      next =>
        split at h
        next => cases h; exact ⟨rfl, by simp⟩
        next => cases h
      next => cases h

theorem readBody_some {kind : MessageKind} {bytes : List Byte} {body : Body} (h : readBody kind bytes = some body) :
    body.wellFormed = true ∧ bytes.length ≤ 40 := by
  cases kind with
  | update =>
    simp only [readBody] at h
    split at h
    next => cases h
    next hne =>
      obtain ⟨items, hitems, rfl⟩ := Option.map_eq_some_iff.mp h
      obtain ⟨hlimit, hlength⟩ := readItems_some hitems
      have hsome := List.length_pos_iff.mpr hne
      refine ⟨?_, by omega⟩
      simp only [Body.wellFormed, Bool.and_eq_true, decide_eq_true_eq]
      omega
  | audit =>
    simp only [readBody] at h
    split at h
    · cases h; exact ⟨rfl, by simp⟩
    · cases h; exact ⟨rfl, by simp⟩
    · cases h
  | resyncRequest | resyncDone =>
    simp only [readBody] at h
    split at h
    next hnil => cases h; exact ⟨rfl, by simp [hnil]⟩
    next => cases h
  | block =>
    simp only [readBody] at h
    split at h
    next number eh el values =>
      split at h
      next hnumber =>
        obtain ⟨items, hitems, rfl⟩ := Option.map_eq_some_iff.mp h
        obtain ⟨htargets, hlength⟩ := readBlockValues_some hitems
        refine ⟨by simpa [Body.wellFormed] using htargets, ?_⟩
        simp only [List.length_cons]
        omega
      next => cases h
    next => cases h

/-- What decodes as header and body: five header bytes, and the body its length byte counts. -/
theorem readContent_some {content : List Byte} {m : Message} (h : readContent content = some m) :
    m.body.wellFormed = true ∧ 5 ≤ content.length ∧ content.length ≤ 45 ∧
      (content.getD 4 0).toNat + 5 = content.length := by
  unfold readContent at h
  split at h
  next kind who eh el length body =>
    split at h
    next hlength =>
      split at h
      next =>
        obtain ⟨b, hbody, rfl⟩ := Option.map_eq_some_iff.mp h
        obtain ⟨hwell, hbound⟩ := readBody_some hbody
        simp only [List.length_cons]
        refine ⟨hwell, by omega, by omega, ?_⟩
        simp [hlength]
      next => cases h
    next => cases h
  next => cases h

/-- Settles O53: what the reader of header and body asks for, with the check and the rank. -/
theorem validMessagesPassEveryTest : Obligations.ValidMessagesPassEveryTest := by
  refine ⟨fun r => rfl, fun r bytes m h => ?_⟩
  obtain ⟨bytes', hbytes, hread, hrank⟩ := classify_some h
  cases hbytes
  unfold readMessage at hread
  simp only at hread
  split at hread
  next hcheck =>
    obtain ⟨hwell, hlow, hhigh, hcount⟩ := readContent_some hread
    have hlength : (bytes.take (bytes.length - 2)).length = bytes.length - 2 := by rw [List.length_take]; omega
    rw [hlength] at hlow hhigh hcount
    have hfourth : (bytes.take (bytes.length - 2)).getD 4 0 = bytes.getD 4 0 := by
      simp only [List.getD_eq_getElem?_getD]
      rw [List.getElem?_take_of_lt (by omega)]
    rw [hfourth] at hcount
    exact ⟨hrank, hwell, by omega, by omega, by omega, hcheck⟩
  next => cases hread

end Sys2Proof.Machine
end

section
/-! The words of the return lane (spec/11_configuration_record_and_formats.md 11.4; R164, R171). -/

namespace Sys2Proof.Machine

-- One thread, as for the tests: proofs elaborated side by side would exceed the build's memory limit.
set_option Elab.async false

open Sys2Proof.Safety

/-! ### Numbers placed in a word -/

theorem toNat_place {v shift : Nat} (h : v * 2 ^ shift < 2 ^ 32) : (place v shift).toNat = v * 2 ^ shift := by
  rw [place, BitVec.toNat_shiftLeft, BitVec.toNat_ofNat, Nat.shiftLeft_eq, Nat.mod_mul_mod, Nat.mod_eq_of_lt h]

/-- A number placed above the bits in use adds to the word. -/
theorem toNat_or_above {w : Word} {n v shift : Nat} (hw : w.toNat = n) (hn : n < 2 ^ shift) (hv : v * 2 ^ shift < 2 ^ 32) :
    (w ||| place v shift).toNat = n + v * 2 ^ shift := by
  rw [BitVec.toNat_or, toNat_place hv, hw, Nat.or_comm, Nat.mul_comm, ← Nat.two_pow_add_eq_or_of_lt hn, Nat.add_comm]

/-- A number placed below the bits in use adds to the word. -/
theorem toNat_or_below {w : Word} {n v shift : Nat} (k : Nat) (hw : w.toNat = n * 2 ^ k) (hv : v * 2 ^ shift < 2 ^ k)
    (hk : k ≤ 32) : (w ||| place v shift).toNat = n * 2 ^ k + v * 2 ^ shift := by
  rw [BitVec.toNat_or, toNat_place (hv.trans_le (Nat.pow_le_pow_right (by decide) hk)), hw, Nat.mul_comm n,
    ← Nat.two_pow_add_eq_or_of_lt hv]

@[simp] theorem toNat_place_zero {v : Nat} (h : v < 2 ^ 32) : (place v 0).toNat = v := by
  rw [toNat_place (by rwa [Nat.pow_zero, Nat.mul_one]), Nat.pow_zero, Nat.mul_one]

/-- Two halves of a word. -/
theorem toNat_halves {high low : Nat} (hhigh : high < 65536) (hlow : low < 65536) :
    (place high 16 ||| place low 0).toNat = 65536 * high + low := by
  rw [toNat_or_below 16 (toNat_place (by omega)) (by omega) (by decide)]
  omega

theorem toNat_or_flag {w : Word} {n shift : Nat} (flag : Bool) (hw : w.toNat = n) (hn : n < 2 ^ shift)
    (h : shift < 32) : (w ||| placeFlag flag shift).toNat = n + flag.toNat * 2 ^ shift := by
  have hpow : 2 ^ shift < 2 ^ 32 := Nat.pow_lt_pow_right (by decide) h
  have hbit : (if flag = true then 1 else 0) = flag.toNat := by cases flag <;> rfl
  rw [placeFlag, hbit, toNat_or_above hw hn]
  exact (Nat.mul_le_mul_right _ flag.toNat_le).trans_lt (by rwa [Nat.one_mul])

theorem flag_eq (flag : Bool) (n : Nat) : (if flag then n else 0) = flag.toNat * n := by
  cases flag <;> simp

theorem layoutSigned_lt (m : Int) : layoutSigned m < 65536 := by
  unfold layoutSigned
  omega

theorem toNat_signed16 (m : Int) : (signed16 m).toNat = layoutSigned m := by
  rw [signed16, BitVec.toNat_ofInt]
  rfl

/-! ### The field words of each record (R171) -/

theorem summaryByte_eq (s : Summary) : s.byte = layoutSummary s ∧ layoutSummary s < 32 := by
  obtain ⟨presence, reported, verdict⟩ := s
  cases presence <;> cases verdict <;> rcases reported with _ | state <;> try cases state
  all_goals decide

theorem toNat_eventWords {e : Event} (h : FitsTheLayout (.event e)) : e.words.map BitVec.toNat = layoutEvent e := by
  have hrank (r : Rank) : (place r.toNat 0).toNat = r.toNat := toNat_place_zero (by omega)
  have hepoch (e : Epoch) : (place e.toNat 0).toNat = e.toNat := toNat_place_zero (by omega)
  have hline (line : Nat) (h : line ≤ 4095) : (place (line % 4096) 0).toNat = line := by
    rw [toNat_place_zero (by omega), Nat.mod_eq_of_lt (by omega)]
  cases e with
  | configFault reason => cases reason <;> rfl
  | founded | joined | selfPromoted => rfl
  | diverged cause | muted cause => cases cause <;> rfl
  | peerFound r | peerLost r => simp [Event.words, layoutEvent, hrank]
  | epochSlip old new => simp [Event.words, layoutEvent, toNat_halves (high := old.toNat) (low := new.toNat) (by omega) (by omega)]
  | timingJump m =>
    have hoffset := layoutSigned_lt m
    simp only [Event.words, layoutEvent, List.map_cons, List.map_nil, toNat_signed16]
    rw [toNat_place_zero (by decide), toNat_place_zero (by omega)]
  | tornApply e | auditLate e => simp [Event.words, layoutEvent, hepoch]
  | sourceShort line | sourceLong line => simp [Event.words, layoutEvent, hline line h]

theorem toNat_valueWords (i : Item) : i.valueWords.map BitVec.toNat = layoutValue i := by
  cases i with
  | setSlot s c =>
    have hgreen : (place c.red.toNat 16 ||| place c.green.toNat 8).toNat = (256 * c.red.toNat + c.green.toNat) * 2 ^ 8 := by
      rw [toNat_or_below 16 (toNat_place (by omega)) (by omega) (by decide)]
      omega
    simp only [Item.valueWords, List.map_cons, List.map_nil, layoutValue, layoutColour]
    rw [toNat_or_below 8 hgreen (by omega) (by decide)]
    congr 1
    omega
  | setRow r codes =>
    have := codes.isLt
    have hhigh : codes.toNat >>> 32 % 4294967296 = codes.toNat / 4294967296 := by
      rw [Nat.shiftRight_eq_div_pow]
      omega
    simpa [Item.valueWords, layoutValue] using hhigh
  | setPosition p =>
    simp [Item.valueWords, layoutValue, toNat_halves (high := p.x.toNat) (low := p.y.toNat) (by omega) (by omega)]
  | setVisibility v => cases v <;> rfl

theorem toNat_fourBytes {a b c d : Nat} (ha : a < 256) (hb : b < 256) (hc : c < 256) (hd : d < 256) :
    (place a 24 ||| place b 16 ||| place c 8 ||| place d 0).toNat = 16777216 * a + 65536 * b + 256 * c + d := by
  have htwo : (place a 24 ||| place b 16).toNat = (256 * a + b) * 2 ^ 16 := by
    rw [toNat_or_below 24 (toNat_place (by omega)) (by omega) (by decide)]
    omega
  have hthree : (place a 24 ||| place b 16 ||| place c 8).toNat = (65536 * a + 256 * b + c) * 2 ^ 8 := by
    rw [toNat_or_below 16 htwo (by omega) (by decide)]
    omega
  rw [toNat_or_below 8 hthree (by omega) (by decide)]
  omega

/-- Four summaries to a word, the lowest rank in the top byte. -/
theorem toNat_summaryWord {l : List Summary} {k : Nat} (h : k + 4 ≤ l.length) :
    (summaryWord ((l.drop k).take 4)).toNat = layoutSummaries k l := by
  have hfour : (l.drop k).take 4 = [l[k], l[k + 1], l[k + 2], l[k + 3]] := by
    rw [List.drop_eq_getElem_cons (by omega), List.drop_eq_getElem_cons (by omega), List.drop_eq_getElem_cons (by omega),
      List.drop_eq_getElem_cons (by omega)]
    rfl
  have hbyte (i : Nat) (hi : k + i < l.length) : l[k + i]?.elim 0 layoutSummary = l[k + i].byte ∧ l[k + i].byte < 32 := by
    rw [List.getElem?_eq_getElem hi, (summaryByte_eq _).1]
    exact ⟨rfl, (summaryByte_eq _).2⟩
  obtain ⟨h0, hlt0⟩ := hbyte 0 (by omega)
  obtain ⟨h1, hlt1⟩ := hbyte 1 (by omega)
  obtain ⟨h2, hlt2⟩ := hbyte 2 (by omega)
  obtain ⟨h3, hlt3⟩ := hbyte 3 (by omega)
  simp only [layoutSummaries, h0, h1, h2, h3, hfour, summaryWord]
  exact toNat_fourBytes (hlt0.trans (by decide)) (hlt1.trans (by decide)) (hlt2.trans (by decide))
    (hlt3.trans (by decide))

theorem toNat_statusWords {tag : Tag} {f : StatusFields} (h : FitsTheLayout (.status tag f)) :
    (f.words tag).map BitVec.toNat = layoutFields (.status tag f) := by
  obtain ⟨hoccupancy, hflight, hreceived, hcursor, hlength⟩ :
    f.occupancy ≤ 63 ∧ f.inFlight ≤ 7 ∧ f.receivedBlocks ≤ 127 ∧ f.cursor ≤ 127 ∧ f.membership.length = 16 := h
  have hsummaries (k : Nat) (hk : k + 4 ≤ 16) :
      (summaryWord ((f.membership.drop k).take 4)).toNat = layoutSummaries k f.membership :=
    toNat_summaryWord (hlength ▸ hk)
  have hcounts : (place f.occupancy 0 ||| place f.inFlight 8 ||| place f.receivedBlocks 16 ||| place f.cursor 24).toNat =
      f.occupancy + 256 * f.inFlight + 65536 * f.receivedBlocks + 16777216 * f.cursor := by
    rw [toNat_or_above (toNat_or_above (toNat_or_above (toNat_place_zero (by omega)) (by omega) (by omega)) (by omega)
      (by omega)) (by omega) (by omega)]
    omega
  have hstate : f.state.code ≤ 6 := by cases f.state <;> decide
  have hepoch : f.epoch.elim 0 BitVec.toNat < 65536 := by
    cases f.epoch with
    | none => decide
    | some e => exact e.isLt
  have hoffset : (f.lastOffset.elim 0 fun m => (signed16 m).toNat) < 65536 := by
    cases f.lastOffset with
    | none => decide
    | some m => exact (signed16 m).isLt
  have htimes : (place (f.epoch.elim 0 BitVec.toNat) 0 ||| place (f.lastOffset.elim 0 fun m => (signed16 m).toNat) 16).toNat =
      f.epoch.elim 0 BitVec.toNat + 65536 * f.lastOffset.elim 0 layoutSigned := by
    rw [toNat_or_above (toNat_place_zero (by omega)) (by omega) (by omega), funext toNat_signed16]
    omega
  have hrank : f.rank.elim 0 BitVec.toNat < 16 := by
    cases f.rank with
    | none => decide
    | some r => exact r.isLt
  have hsuspect := f.suspect.toNat_le
  have hrequester := f.requester.toNat_le
  have hranked := f.rank.isSome.toNat_le
  have hknown := f.epoch.isSome.toNat_le
  have hmeasured := f.lastOffset.isSome.toNat_le
  have hflags : (place tag.toNat 0 ||| place f.state.code 8 ||| place (f.rank.elim 0 BitVec.toNat) 16 |||
      placeFlag f.rank.isSome 20 ||| placeFlag f.suspect 24 ||| placeFlag f.requester 25 |||
      placeFlag f.epoch.isSome 26 ||| placeFlag f.lastOffset.isSome 27).toNat =
      tag.toNat + 256 * f.state.code + (65536 * f.rank.elim 0 BitVec.toNat + f.rank.isSome.toNat * 1048576) +
        f.suspect.toNat * 16777216 + f.requester.toNat * 33554432 + f.epoch.isSome.toNat * 67108864 +
        f.lastOffset.isSome.toNat * 134217728 := by
    rw [toNat_or_flag _ (toNat_or_flag _ (toNat_or_flag _ (toNat_or_flag _ (toNat_or_flag _ (toNat_or_above
      (toNat_or_above (toNat_place_zero (by omega)) (by omega) (by omega)) (by omega) (by omega))
      (by omega) (by decide)) (by omega) (by decide)) (by omega) (by decide)) (by omega) (by decide)) (by omega) (by decide)]
    omega
  have hfirst : (summaryWord (f.membership.take 4)).toNat = layoutSummaries 0 f.membership := hsummaries 0 (by decide)
  simp only [StatusFields.words, layoutFields, List.map_cons, List.map_nil, hflags, htimes, hcounts, hfirst,
    hsummaries 4 (by decide), hsummaries 8 (by decide), hsummaries 12 (by decide), flag_eq]
  congr 1
  have hrankField : (65536 * f.rank.elim 0 BitVec.toNat + f.rank.isSome.toNat * 1048576) =
      f.rank.elim 0 fun r => 65536 * r.toNat + 1048576 := by cases f.rank <;> simp
  rw [hrankField]
  cases f.state <;> rfl

theorem toNat_fieldWords {r : Record} (h : FitsTheLayout r) : r.fieldWords.map BitVec.toNat = layoutFields r := by
  cases r with
  | accepted tag =>
    simp only [Record.fieldWords, List.map_cons, List.map_nil, layoutFields]
    rw [toNat_place (by omega)]
    simp
  | refused tag reason =>
    have hword (code : Nat) (hcode : code ≤ 4) :
        (place tag.toNat 0 ||| place code 8).toNat = tag.toNat + code * 256 := by
      rw [toNat_or_above (toNat_place (by omega)) (by omega) (by omega)]
      omega
    cases reason <;> simp [Record.fieldWords, layoutFields, RefusalReason.code, hword]
  | settled tag posted removed lastPosting =>
    obtain ⟨hposted, hremoved⟩ : posted ≤ 15 ∧ removed ≤ 15 := h
    have hword (flag : Bool) : (place tag.toNat 0 ||| place posted 8 ||| place removed 12 ||| placeFlag flag 16).toNat =
        tag.toNat + 256 * posted + 4096 * removed + if flag then 65536 else 0 := by
      rw [toNat_or_flag flag (toNat_or_above (toNat_or_above (toNat_place_zero (by omega)) (by omega) (by omega))
        (by omega) (by omega)) (by omega) (by decide), flag_eq]
      omega
    cases lastPosting with
    | none => simp [Record.fieldWords, layoutFields, hword, toNat_place]
    | some e =>
      have he : (place e.toNat 0).toNat = e.toNat := by rw [toNat_place (by omega)]; simp
      simp [Record.fieldWords, layoutFields, hword, he]
  | epoch e written torn offset =>
    have hwritten : written ≤ 511 := h
    have hoffset := layoutSigned_lt offset
    simp only [Record.fieldWords, layoutFields, List.map_cons, List.map_nil, toNat_signed16]
    rw [toNat_or_flag torn (toNat_or_above (toNat_place_zero (by omega)) (by omega) (by omega)) (by omega) (by decide),
      toNat_place_zero (by omega), flag_eq]
    congr 1
    omega
  | status tag f => exact toNat_statusWords h
  | value tag item =>
    have hnumber : item.target.number ≤ 293 := by
      cases item <;> simp only [Item.target, Target.number] <;> omega
    simp only [Record.fieldWords, layoutFields, List.map_cons, toNat_valueWords]
    rw [toNat_or_above (toNat_place (by omega)) (by omega) (by omega)]
    congr 1
    omega
  | event e => exact toNat_eventWords h

/-! ### Records and cues on the lane -/

theorem recordWord_eq (w : Word) : recordWord w = BitVec.ofNat 33 (4294967296 + w.toNat) := by
  have := w.isLt
  apply BitVec.eq_of_toNat_eq
  rw [recordWord, BitVec.toNat_append, Nat.shiftLeft_eq, Nat.mul_comm, ← Nat.two_pow_add_eq_or_of_lt this]
  simp only [BitVec.toNat_ofNat]
  omega

theorem layoutFields_length (r : Record) : (layoutFields r).length ≤ 7 := by
  unfold layoutFields layoutEvent layoutValue
  repeat' split
  all_goals simp

theorem recordCode_eq (r : Record) : r.code = layoutCode r ∧ layoutCode r ≤ 7 := by
  cases r <;> simp [Record.code, layoutCode]

theorem toNat_headWord {r : Stamped} {length : Nat} (homitted : r.omitted ≤ 255) (hlength : length ≤ 7) :
    (place r.record.code 24 ||| place r.omitted 16 ||| place length 0).toNat =
      16777216 * layoutCode r.record + 65536 * r.omitted + length := by
  obtain ⟨hcode, hsmall⟩ := recordCode_eq r.record
  have htop : (place r.record.code 24 ||| place r.omitted 16).toNat = (256 * layoutCode r.record + r.omitted) * 2 ^ 16 := by
    rw [hcode, toNat_or_below 24 (toNat_place (by omega)) (by omega) (by decide)]
    omega
  rw [toNat_or_below 16 htop (by omega) (by decide)]
  omega

theorem cueWord_eq {line : Nat} (active : Bool) (hline : line ≤ 4095) :
    (⟨line, active⟩ : Cue).word = BitVec.ofNat 33 (line + if active then 4096 else 0) := by
  have hword : (place (line % 4096) 0 ||| placeFlag active 12).toNat = line + active.toNat * 4096 := by
    rw [toNat_or_flag active (toNat_place_zero (by omega)) (by omega) (by decide), Nat.mod_eq_of_lt (by omega)]
    rfl
  have hflag := active.toNat_le
  apply BitVec.eq_of_toNat_eq
  rw [Cue.word, BitVec.toNat_append, hword, flag_eq]
  simp
  omega

/-- Settles O16: word by word, a record as its head word and the words of its fields. -/
theorem recordWordsFollowTheLayout : Obligations.RecordWordsFollowTheLayout := by
  refine ⟨fun r homitted hfits => ⟨layoutFields_length r.record, ?_⟩, fun line active hline => cueWord_eq active hline⟩
  have hfields := toNat_fieldWords hfits
  have hlength : r.record.fieldWords.length = (layoutFields r.record).length := by rw [← hfields, List.length_map]
  have hhead := toNat_headWord homitted (layoutFields_length r.record)
  rw [← hlength] at hhead
  rw [Stamped.words, ← hlength, ← hhead, ← hfields, ← List.map_cons, List.map_map]
  exact List.map_congr_left fun w _ => recordWord_eq w

end Sys2Proof.Machine
end

section
/-! Which commands can change what (spec/01_the_wall_state_and_its_digest.md 1.4, spec/03_epochs_and_frame_timing.md 3.3,
spec/04_the_wall_bus.md 4.3, spec/05_sending_proposals_and_send_selection.md 5.1, spec/08_station_lifecycle.md 8.2,
spec/10_the_pixel_path.md 10.1). -/

namespace Sys2Proof.Machine

-- One thread, as for the tests: proofs elaborated side by side would exceed the build's memory limit.
set_option Elab.async false

open Sys2Proof.Safety

section

variable {s t : State} {c : Instr}

/-- R10 to R12: the wall state. -/
theorem move_wall (hmove : Move s c t) (hreset : c ≠ .reset) (h : t.store.wall ≠ s.store.wall) :
    c = .lineStart ∨ (∃ w, c = .rejoin w) ∨ (∃ e, c = .mark e) ∨ ∃ m, c = .messageReceived m := by
  cases hmove with
  | reset => exact absurd rfl hreset
  | countLine => exact .inl rfl
  | rejoin payload => exact .inr (.inl ⟨payload, rfl⟩)
  | mark others => exact .inr (.inr (.inl ⟨others, rfl⟩))
  | message read => exact .inr (.inr (.inr ⟨read, rfl⟩))
  | endFrame =>
    refine absurd ?_ h
    simp only [State.endFrame, State.eitherOrder_frame, State.listen]
    repeat' split
    all_goals rfl
  | pixelWord | fieldFault | select | endSlot => exact absurd (by simp) h
  | idle | configured | configFaulted | commandWord | answer | accept | withdraw | recordSent | seekGap | idleGap
  | dominantLevel | driveStartPulse | followRound | damageSlot | originField | markSlot | reserve | transmit
  | mismatch => exact absurd rfl h

/-- R39, R47: the epoch number. -/
theorem move_epoch (hmove : Move s c t) (hreset : c ≠ .reset) (h : t.timer.epoch ≠ s.timer.epoch) :
    c = .naturalFrameEnd ∨ (∃ w, c = .rejoin w) ∨ ∃ e, c = .mark e := by
  cases hmove with
  | reset => exact absurd rfl hreset
  | endFrame => exact .inl rfl
  | rejoin payload => exact .inr (.inl ⟨payload, rfl⟩)
  | mark others => exact .inr (.inr ⟨others, rfl⟩)
  | countLine | message | pixelWord | fieldFault | select | endSlot => exact absurd (by simp) h
  | idle | configured | configFaulted | commandWord | answer | accept | withdraw | recordSent | seekGap | idleGap
  | dominantLevel | driveStartPulse | followRound | damageSlot | originField | markSlot | reserve | transmit
  | mismatch => exact absurd rfl h

/-- R125: the configuration. -/
theorem move_loader (hmove : Move s c t) (hreset : c ≠ .reset) (h : t.loader ≠ s.loader) :
    ∃ read, c = .configurationComplete read := by
  cases hmove with
  | reset => exact absurd rfl hreset
  | @configured read => exact ⟨read, rfl⟩
  | countLine | endFrame | mark | message | pixelWord | fieldFault | select | endSlot => exact absurd (by simp) h
  | idle | configFaulted | commandWord | answer | accept | withdraw | rejoin | recordSent | seekGap | idleGap
  | dominantLevel | driveStartPulse | followRound | damageSlot | originField | markSlot | reserve | transmit
  | mismatch => exact absurd rfl h

/-- R53, R60: the next-origin belief. -/
theorem move_belief (hmove : Move s c t) (hreset : c ≠ .reset) (h : t.bus.belief ≠ s.bus.belief) :
    (∃ field, c = .originField field) ∨ c = .messageAborted ∨ c = .slotVacant ∨ ∃ m, c = .messageReceived m := by
  cases hmove with
  | reset => exact absurd rfl hreset
  | originField others => exact .inl ⟨others, rfl⟩
  | endSlot hrow => exact hrow.elim (fun h => .inr (.inl h)) fun h => .inr (.inr (.inl h))
  | message read => exact .inr (.inr (.inr ⟨read, rfl⟩))
  | fieldFault =>
    obtain ⟨suspect, hbus⟩ := s.fieldFault_bus
    exact absurd (by rw [hbus]; rfl) h
  | select =>
    refine absurd ?_ h
    unfold State.select
    split <;> rfl
  | reserve =>
    refine absurd ?_ h
    unfold BusController.reserve
    dsimp only
    split <;> rfl
  | countLine | endFrame | mark | pixelWord | idleGap | dominantLevel => exact absurd (by simp) h
  | idle | configured | configFaulted | commandWord | answer | accept | withdraw | rejoin | recordSent | seekGap
  | driveStartPulse | followRound | damageSlot | markSlot | transmit | mismatch => exact absurd rfl h

/-- R72: the proposal queue. -/
theorem move_queue (hmove : Move s c t) (hreset : c ≠ .reset) (h : t.command.queue ≠ s.command.queue) :
    (∃ w, c = .setColors w ∨ c = .setPointerRow w ∨ c = .movePointer w ∨ c = .pointerVisibility w ∨ c = .withdraw w ∨
        c = .rejoin w) ∨
      c = .fieldFault ∨ c = .startPulse ∨ c = .messageAborted ∨ c = .slotVacant ∨ ∃ m, c = .messageReceived m := by
  cases hmove with
  | reset => exact absurd rfl hreset
  | accept hrow =>
    obtain ⟨w, hrow⟩ := hrow
    exact .inl ⟨w, by tauto⟩
  | withdraw payload => exact .inl ⟨payload, by simp⟩
  | rejoin payload => exact .inl ⟨payload, by simp⟩
  | fieldFault hrow => exact .inr (hrow.elim (fun h => .inr (.inl h)) .inl)
  | endSlot hrow => exact .inr (.inr (.inr (hrow.elim .inl fun h => .inr (.inl h))))
  | message read => exact .inr (.inr (.inr (.inr (.inr ⟨read, rfl⟩))))
  | countLine | endFrame | mark | pixelWord => exact absurd (by simp) h
  | select =>
    refine absurd ?_ h
    unfold State.select
    split
    next kind _ => cases kind <;> rfl
    next => rfl
  | idle | configured | configFaulted | commandWord | answer | recordSent | seekGap | idleGap | dominantLevel
  | driveStartPulse | followRound | damageSlot | originField | markSlot | reserve | transmit | mismatch =>
    exact absurd rfl h

/-- R158: the show buffer. -/
theorem move_shown (hmove : Move s c t) (hreset : c ≠ .reset) (h : t.pixel.shown ≠ s.pixel.shown) :
    c = .lineStart ∨ c = .naturalFrameEnd ∨ (∃ e, c = .mark e) ∨ ∃ read, c = .configurationComplete read := by
  cases hmove with
  | reset => exact absurd rfl hreset
  | countLine => exact .inl rfl
  | endFrame => exact .inr (.inl rfl)
  | mark others => exact .inr (.inr (.inl ⟨others, rfl⟩))
  | @configured read => exact .inr (.inr (.inr ⟨read, rfl⟩))
  | message | pixelWord | fieldFault | select | endSlot => exact absurd (by simp) h
  | idle | configFaulted | commandWord | answer | accept | withdraw | rejoin | recordSent | seekGap | idleGap
  | dominantLevel | driveStartPulse | followRound | damageSlot | originField | markSlot | reserve | transmit
  | mismatch => exact absurd rfl h

end

/-- Settles O49: what each move keeps. -/
theorem onlyNamedCommandsWrite : Obligations.OnlyNamedCommandsWrite := by
  intro c s t hexec hreset
  have hmove : Move s c t := exec_next_iff.mp hexec ▸ move_after s c
  exact ⟨move_wall hmove hreset, move_epoch hmove hreset, move_loader hmove hreset, move_belief hmove hreset,
    move_queue hmove hreset, move_shown hmove hreset⟩

end Sys2Proof.Machine
end

section
/-! The changes of station state (spec/08_station_lifecycle.md 8.1; R123). -/

namespace Sys2Proof.Machine

-- One thread, as for the tests: proofs elaborated side by side would exceed the build's memory limit.
set_option Elab.async false

open Sys2Proof.Safety

/-! ### A mark -/

/-- The shortest S: two audit windows and more (R165). -/
theorem silenceLimit_ge_six {c : Settings} (h : settingsInRange c = true) : 6 ≤ c.silenceLimit := by
  simp only [settingsInRange, Bool.and_eq_true, decide_eq_true_eq, List.contains_iff_mem, List.mem_cons, List.not_mem_nil,
    or_false] at h
  omega

/-- A mark leaves a repairing station as it is, or promotes it: its own rank has no entry in the tally, so that no decision
makes it DIVERGED again at the same mark (R119, R121). -/
theorem takeMark_of_repairing {s : State} {c : Settings} (others : Epoch) (hconfig : s.loader.config = some c)
    (hrepairing : s.station.state.repairing = true) (hrange : settingsInRange c = true) (haudit : AuditSound s) :
    (s.takeMark c (adoptedEpoch s others)).station = s.station ∨
      (s.takeMark c (adoptedEpoch s others)).station = { s.station with state := .inStep } := by
  have hlistening : s.station.state ≠ .listening := fun h => by rw [h] at hrepairing; cases hrepairing
  cases hpromotes : s.promotes c with
  | false =>
    obtain ⟨port, -, htake, -, -, hmarked⟩ := takeMark_of_not_promoting (c := c) others hlistening hpromotes
    obtain ⟨hstation, hresync⟩ := hmarked hrepairing
    have hwait := (actAll [timerAct s c others, storeAct s c others, memberAct s c others] s).waitMark_cases c
      s.station.state.repairing s.anyEligible
    rw [htake]
    simp only [State.repeatRequest_frame]
    rcases hwait with ⟨-, -, hlimit, -⟩ | ⟨-, -, -, h⟩ | h
    · rw [hresync] at hlimit
      simp [State.promotes, hrepairing, hlimit] at hpromotes
    · rw [h]; exact .inl hstation
    · rw [h]; exact .inl hstation
  | true =>
    have htally : atRank s.members.tally c.rank = none := by
      obtain ⟨-, -, -, -, hmarks, -, -, -, hyoung⟩ := haudit
      rw [← Option.not_isSome_iff_eq_none]
      intro hvote
      obtain ⟨w, hw, hwait⟩ := hyoung c.rank (by rw [State.rank?, hconfig]; rfl) hrepairing hvote
      have hcount : w.marks ≤ 1 := hmarks w hw
      have hlimit : c.silenceLimit ≤ s.resync.wait + 1 := ((promotes_iff hrepairing).mp hpromotes).trans (by
        unfold ResyncUnit.waitAfter
        split <;> omega)
      have hsix := silenceLimit_ge_six hrange
      omega
    obtain ⟨acts, -, hagree⟩ := promotion_agree others hconfig hpromotes []
    obtain ⟨-, hpromoted⟩ := hagree.run ⟨marking_self hlistening, htally⟩
    exact .inr ((State.takeMark_station ..).trans hpromoted.2.1)

/-- A mark leaves an IN STEP station so, or makes it DIVERGED. -/
theorem takeMark_of_inStep {s : State} (c : Settings) (adopted : Epoch) (h : s.station.state = .inStep) :
    (s.takeMark c adopted).station = s.station ∨
      (s.takeMark c adopted).station = { s.station with state := .diverged } := by
  rw [State.takeMark_station]
  refine State.markActions_keep (Q := fun t => t.station = s.station ∨ t.station = { s.station with state := .diverged })
    (fun t ht => by simpa using ht) (fun t ht => by simpa using ht) (fun t ht => ?_) (fun t ht => ?_) (.inl rfl)
  · have hlistening : t.station.state ≠ .listening := by
      rcases ht with ht | ht <;> rw [ht]
      · rw [h]; exact nofun
      · exact nofun
    rw [State.stationMark_of_not_listening hlistening]
    rcases t.memberMark_station c s.timer.epoch adopted with heq | ⟨hstep, heq⟩ <;> rw [heq]
    · exact ht
    · rcases ht with ht | ht
      · exact .inr (by rw [ht])
      · rw [ht] at hstep; cases hstep
  · rcases t.waitMark_station c s.station.state.repairing s.anyEligible with heq | ⟨hrepairing, -⟩
    · rwa [heq]
    · rw [h] at hrepairing; cases hrepairing

theorem transition_mark {s : State} {c : Settings} (others : Epoch) (hconfig : s.loader.config = some c)
    (hrange : settingsInRange c = true) (haudit : AuditSound s)
    (hne : (s.takeMark c (adoptedEpoch s others)).station.state ≠ s.station.state) :
    Transition (.mark others) s.station.state (s.takeMark c (adoptedEpoch s others)).station.state := by
  cases hstate : s.station.state with
  | listening =>
    rw [State.takeMark_of_listening hstate]
    exact ⟨others, rfl⟩
  | inStep =>
    rcases takeMark_of_inStep c (adoptedEpoch s others) hstate with h | h <;> rw [h] at hne ⊢
    · exact absurd rfl hne
    · exact .inr (.inr (.inl ⟨others, rfl⟩))
  | joining | diverged =>
    rcases takeMark_of_repairing others hconfig (by rw [hstate]; rfl) hrange haudit with h | h <;> rw [h] at hne ⊢
    · exact absurd rfl hne
    · exact .inl ⟨others, rfl⟩
  | configuring | configFault | muted =>
    rw [State.takeMark_of_outside (by rw [State.active, hstate]; rfl) (by rw [hstate]; exact nofun)] at hne
    exact absurd rfl hne

/-! ### The end of a slot -/

/-- MUTED comes to a station that follows the bus and is not MUTED yet. -/
theorem transition_muted {c : Instr} {state : StationState} (read : Option (List Byte)) (hc : c = .messageReceived read)
    (hconfigured : state ≠ .configuring ∧ state ≠ .configFault) (hne : state ≠ .muted) : Transition c state .muted := by
  subst hc
  cases state with
  | listening => exact ⟨read, rfl⟩
  | joining | inStep | diverged => exact .inr (.inr ⟨read, rfl⟩)
  | configuring => exact absurd rfl hconfigured.1
  | configFault => exact absurd rfl hconfigured.2
  | muted => exact absurd rfl hne

theorem transition_message {s : State} {r : Rank} (read : Option (List Byte)) (hconfigured : Configured s)
    (hne : (s.takeMessage r read).endSlot.station.state ≠ s.station.state) :
    Transition (.messageReceived read) s.station.state (s.takeMessage r read).endSlot.station.state := by
  have hend : (s.takeMessage r read).endSlot.station = (s.takeMessage r read).slotOutcome.station := rfl
  rw [hend] at hne ⊢
  rcases (s.takeMessage r read).slotOutcome_station with heq | ⟨-, -, heq⟩ <;> rw [heq] at hne ⊢
  · rcases s.takeMessage_station r read with h | ⟨hrepairing, h⟩ | ⟨hstep, h⟩ | ⟨-, h⟩ <;> rw [h] at hne ⊢
    · exact absurd rfl hne
    · cases hstate : s.station.state <;> rw [hstate] at hrepairing <;> try cases hrepairing
      all_goals exact .inr ⟨read, rfl⟩
    · rw [hstep]
      exact .inr (.inr (.inr ⟨read, rfl⟩))
    · exact transition_muted read rfl hconfigured hne.symm
  · exact transition_muted read rfl hconfigured hne.symm

theorem transition_endSlot {s : State} {c : Instr} (hrow : c = .messageAborted ∨ c = .slotVacant) (hbus : BusSound s)
    (hne : s.endSlot.station.state ≠ s.station.state) : Transition c s.station.state s.endSlot.station.state := by
  have hend : s.endSlot.station = s.slotOutcome.station := rfl
  rw [hend] at hne ⊢
  rcases s.slotOutcome_station with heq | ⟨hchosen, -, heq⟩ <;> rw [heq] at hne ⊢
  · exact absurd rfl hne
  · have hactive : s.station.state.active = true := (hbus.1 hchosen).1
    cases hstate : s.station.state <;> rw [hstate] at hactive <;> try cases hactive
    all_goals exact hrow.imp_right .inl

/-- Settles O50: move by move. -/
theorem statesChangeByTheTable : Obligations.StatesChangeByTheTable := by
  intro c s t hbus htiming haudit hexec hne
  have hmove : Move s c t := exec_next_iff.mp hexec ▸ move_after s c
  obtain ⟨-, -, hround, hsettings, -⟩ := htiming
  have hdata : s.bus.round = .data → Configured s := fun h => by
    by_contra hconfigured
    rw [hround.mpr hconfigured] at h
    cases h
  cases hmove with
  | reset => exact rfl
  | @configured read c hstate =>
    rw [hstate]
    exact ⟨read, rfl⟩
  | @configFaulted read reason hstate =>
    rw [hstate]
    exact ⟨read, rfl⟩
  | rejoin payload tag hstate =>
    change Transition _ _ .listening
    cases hs : s.station.state <;> rw [hs] at hstate hne <;> try cases hstate
    · exact absurd rfl hne
    all_goals exact ⟨payload, rfl⟩
  | @endFrame c =>
    rcases s.endFrame_station c with h | ⟨hbefore, h⟩
    · exact absurd h hne
    · rw [hbefore, h]
      exact rfl
  | fieldFault hrow =>
    rw [State.fieldFault_station] at hne ⊢
    split at hne
    next hstate =>
      rw [if_pos hstate, hstate]
      exact hrow.elim (fun h => .inr (.inl h)) .inl
    next => exact absurd rfl hne
  | @mark others c hconfig =>
    rw [State.fieldAfterMark_station, ← adoptedEpoch_eq] at hne ⊢
    exact transition_mark others hconfig (hsettings c hconfig).1 haudit hne
  | endSlot hrow => exact transition_endSlot hrow hbus hne
  | message read hround' => exact transition_message read (hdata hround') hne
  | countLine | pixelWord | select => exact absurd (by simp) hne
  | idle | commandWord | answer | accept | withdraw | recordSent | seekGap | idleGap | dominantLevel
  | driveStartPulse | followRound | damageSlot | originField | markSlot | reserve | transmit | mismatch =>
    exact absurd rfl hne

end Sys2Proof.Machine
end
